-- ==== Sys2Proof/Word.lean ====
section
/-! DEFINITION. The word types of AESKS and the fixed sizes of its data (00_scope.md R7, R8, R10).
Every value of the spec is unsigned, so each is a plain bit vector: nothing here sign-extends. -/

namespace Sys2Proof

/-- A byte: an unsigned 8-bit value (R10). -/
abbrev Byte := BitVec 8

/-- A word: an unsigned 32-bit value (R10); the width of a port register and of a command (R8). -/
abbrev Word := BitVec 32

/-- A byte offset in the 4 KiB register window: 12 bits, relative to BASE (R8, R50). -/
abbrev Offset := BitVec 12

/-- Sixteen bytes, numbered 0 to 15 as the spec numbers a key and an AES state (R7, R13). -/
abbrev Block := Vector Byte 16

/-- The key schedule's 44 words, W[0] to W[43] (R7, R24). -/
abbrev Schedule := Vector Word 44

end Sys2Proof
end

