-- ==== Sys2Proof/Syntax.lean ====
section
/-! DEFINITION. The sixteen commands of spec/opcode_table.json (30_encoding.md, the opcode map). Operands are the
command's 8-bit immediates A and B, used as they stand (R80, R81); no command names a register (R20). -/

namespace Sys2Proof

/-- A command. The opcode map of 30_encoding.md, in its order. -/
inductive Instr where
  /-- 0x00 NOP (R170). -/
  | nop
  /-- 0x01 SBOX x (R104). -/
  | sbox (x : Byte)
  /-- 0x02 INVSBOX y (R105). -/
  | invsbox (y : Byte)
  /-- 0x03 RCON i (R106). -/
  | rcon (i : Byte)
  /-- 0x04 GFMUL a, b (R122). -/
  | gfmul (a b : Byte)
  /-- 0x05 EXPAND (R131). -/
  | expand
  /-- 0x06 SUBBYTES (R141). -/
  | subbytes
  /-- 0x07 INVSUBBYTES (R142). -/
  | invsubbytes
  /-- 0x08 SHIFTROWS (R144). -/
  | shiftrows
  /-- 0x09 INVSHIFTROWS (R145). -/
  | invshiftrows
  /-- 0x0A MIXCOLUMNS (R148). -/
  | mixcolumns
  /-- 0x0B INVMIXCOLUMNS (R149). -/
  | invmixcolumns
  /-- 0x0C ADDROUNDKEY r (R151). -/
  | addroundkey (r : Byte)
  /-- 0x0D ENCRYPT (R163). -/
  | encrypt
  /-- 0x0E DECRYPT (R164). -/
  | decrypt
  /-- 0x0F ZEROIZE (R171). -/
  | zeroize
deriving DecidableEq, Repr

end Sys2Proof
end

