-- ==== Sys2Proof/WellFormed.lean ====
section
/-! DEFINITION. The operand ranges of 30_encoding.md R84: the check that a decoded command must pass to be
accepted. A command that fails it raises BAD_OPERAND. -/

namespace Sys2Proof

/-- R84: RCON takes 1..10 and ADDROUNDKEY takes 0..10; every other operand may be any byte. -/
def Instr.wellFormed : Instr → Bool
  | .nop => true
  | .sbox _ => true
  | .invsbox _ => true
  | .rcon i => decide (1 ≤ i.toNat ∧ i.toNat ≤ 10)
  | .gfmul _ _ => true
  | .expand => true
  | .subbytes => true
  | .invsubbytes => true
  | .shiftrows => true
  | .invshiftrows => true
  | .mixcolumns => true
  | .invmixcolumns => true
  | .addroundkey r => decide (r.toNat ≤ 10)
  | .encrypt => true
  | .decrypt => true
  | .zeroize => true

end Sys2Proof
end

