-- ==== Sys2Proof/Decode.lean ====
section
/-! DEFINITION. The command decoder (30_encoding.md R80 to R83, R86) and, after it, the encoder (R87). Decoding
fills in the fields of format C and rejects reserved encodings by name; the operand ranges of R84 are
Instr.wellFormed, checked after it. -/

namespace Sys2Proof

/-- Bits 7:0, OP (R80). -/
def opField (v : Word) : Byte := v.extractLsb' 0 8

/-- Bits 15:8, operand A (R80). -/
def aField (v : Word) : Byte := v.extractLsb' 8 8

/-- Bits 23:16, operand B (R80). -/
def bField (v : Word) : Byte := v.extractLsb' 16 8

/-- Bits 31:24, Z, reserved (R80). -/
def zField (v : Word) : Byte := v.extractLsb' 24 8

/-- Why a word is not the encoding of a command. All of them raise ILLEGAL_CMD (R82, R83). -/
inductive DecodeError where
  /-- OP is 0x10 or more (R82). -/
  | reservedOpcode
  /-- Z is not 0 (R82). -/
  | reservedField
  /-- An operand field the opcode does not use is not 0 (R83). -/
  | unusedOperand
deriving DecidableEq, Repr

/-- A command that uses neither operand: A and B must be 0 (R83). -/
def usesNone (a b : Byte) (i : Instr) : Except DecodeError Instr :=
  if a = 0 ∧ b = 0 then .ok i else .error .unusedOperand

/-- A command that uses A alone: B must be 0 (R83). -/
def usesOnlyA (b : Byte) (i : Instr) : Except DecodeError Instr :=
  if b = 0 then .ok i else .error .unusedOperand

/-- The command a 32-bit word encodes: R82 first, then the opcode map with R83. -/
def decode (v : Word) : Except DecodeError Instr :=
  if zField v ≠ 0 then .error .reservedField else
  let a := aField v
  let b := bField v
  match (opField v).toNat with
  | 0x00 => usesNone a b .nop
  | 0x01 => usesOnlyA b (.sbox a)
  | 0x02 => usesOnlyA b (.invsbox a)
  | 0x03 => usesOnlyA b (.rcon a)
  | 0x04 => .ok (.gfmul a b)
  | 0x05 => usesNone a b .expand
  | 0x06 => usesNone a b .subbytes
  | 0x07 => usesNone a b .invsubbytes
  | 0x08 => usesNone a b .shiftrows
  | 0x09 => usesNone a b .invshiftrows
  | 0x0A => usesNone a b .mixcolumns
  | 0x0B => usesNone a b .invmixcolumns
  | 0x0C => usesOnlyA b (.addroundkey a)
  | 0x0D => usesNone a b .encrypt
  | 0x0E => usesNone a b .decrypt
  | 0x0F => usesNone a b .zeroize
  | _ => .error .reservedOpcode

/-- The word of bits w below nbits, with every bit from nbits on 0: every command is one 32-bit word (R86). -/
def tableWord (nbits w : Nat) : Word := BitVec.ofNat 32 (w % 2 ^ nbits)

/-- The command the decoder reads from an opcode-table word. -/
def decodeTableWord (nbits w : Nat) : Option Instr :=
  match decode (tableWord nbits w) with
  | .ok i => some i
  | .error _ => none

/-- The word with the given B, A and OP bytes and Z = 0 (R80, R87). -/
def commandWord (b a op : Byte) : Word := b.setWidth 32 <<< 16 ||| a.setWidth 32 <<< 8 ||| op.setWidth 32

/-- The assembled word of a command, absent operands 0 (R87). -/
def encode : Instr → Word
  | .nop => commandWord 0 0 0x00
  | .sbox x => commandWord 0 x 0x01
  | .invsbox y => commandWord 0 y 0x02
  | .rcon i => commandWord 0 i 0x03
  | .gfmul a b => commandWord b a 0x04
  | .expand => commandWord 0 0 0x05
  | .subbytes => commandWord 0 0 0x06
  | .invsubbytes => commandWord 0 0 0x07
  | .shiftrows => commandWord 0 0 0x08
  | .invshiftrows => commandWord 0 0 0x09
  | .mixcolumns => commandWord 0 0 0x0A
  | .invmixcolumns => commandWord 0 0 0x0B
  | .addroundkey r => commandWord 0 r 0x0C
  | .encrypt => commandWord 0 0 0x0D
  | .decrypt => commandWord 0 0 0x0E
  | .zeroize => commandWord 0 0 0x0F

end Sys2Proof
end

