-- ==== Sys2Proof/Config.lean ====
section
/-! DEFINITION. What the spec leaves open, as constants without a body: the four OPEN parameters of
92_eei_decisions.md (BASE, HOST_ORDERED, LAT, RCON0), the draws of 00_scope.md R16, and the choice of which
posted write arrives first. Lean can prove no value of any of them, so a claim holds whatever they are. -/

namespace Sys2Proof

/-- The data registers and the key-valid flag, taken together (10_state.md R20 to R26). -/
structure Data where
  /-- KEY (R22). -/
  key : Block
  /-- ST (R23). -/
  st : Block
  /-- W (R24). -/
  w : Schedule
  /-- KV (R26). -/
  kv : Bool
  /-- RESULT (R25). -/
  result : Byte
deriving DecidableEq, Repr

/-- LAT (R9, R230, R231), in the only unit the model can see: how many port accesses the block performs between
the acceptance of a command and its completion while the host has accesses waiting. Its arguments are the number
of commands accepted so far (a fresh draw for each command), the command's opcode and operands, and the data
registers: the spec promises independence of none of them. Assumption log 3. -/
opaque Config.latency : Nat → Byte → Byte → Byte → Data → Nat

/-- The value ANY of a read of STATE, RESULT or RK while BUSY = 1 (20_memory.md R63): a fresh draw for each value
of its first argument, and it may depend on the data registers. Assumption log 4. -/
opaque Config.draw : Nat → Data → Word

/-- RCON0: the content of Rcon ROM entry 0, which no command reads (R9, 40_rom_lookup.md R102). -/
opaque Config.rcon0 : Byte

/-- HOST_ORDERED: whether the host's writes reach the port in program order (20_memory.md R68). -/
opaque Config.hostOrdered : Bool

/-- Which of the accesses that may reach the port next does so, when HOST_ORDERED is false (R68, D38); its
argument counts the accesses that have arrived. Assumption log 5. -/
opaque Config.arrival : Nat → Nat

/-- BASE / 4096: where the platform puts the window (R50, R71). BASE is a multiple of 4096 (D3). -/
opaque Config.baseIndex : Nat

/-- BASE (R50). Every offset of the model is relative to it. -/
def Config.base : Nat := 4096 * Config.baseIndex

/-- The system address of a window offset (R50). -/
def Config.address (off : Offset) : Nat := Config.base + off.toNat

/-- The window offset of a system address; none for an address outside the window, which selects another
slave and is no access of this block (R50). -/
def Config.offset? (addr : Nat) : Option Offset :=
  if Config.base ≤ addr ∧ addr < Config.base + 4096 then some (BitVec.ofNat 12 (addr - Config.base)) else none

end Sys2Proof
end

