-- ==== Sys2Proof/Machine/State.lean ====
section
/-! DEFINITION. The machine's state as plain data (10_state.md), the accesses a host can make (00_scope.md R15,
30_encoding.md R88), the faults and refusals, and the state after reset (R37, 70_reset_and_hazards.md R210).
The block has no program counter, no register file, no memory and no traps (R20, R21, R50, R187). -/

namespace Sys2Proof.Machine

/-- How wide a port access is. The port accepts 32 bits and rejects the others (R53). -/
inductive Size where
  | byte
  | half
  | word
deriving DecidableEq, Repr

/-- The bus response of a port access (R15). -/
inductive Resp where
  | okay
  | error
deriving DecidableEq, Repr

/-- What the outside world does to the block: one entry of a host program (R88), or a reset (R210). -/
inductive HostOp where
  /-- RD off: a read transaction. -/
  | read (size : Size) (off : Offset)
  /-- WR off, v: a write transaction. -/
  | write (size : Size) (off : Offset) (v : Word)
  /-- POLL: the loop that reads STATUS until BUSY = 0. -/
  | poll
  /-- rst_n is asserted and released (R210, R211). -/
  | reset
deriving DecidableEq, Repr

/-- A transaction the port has performed: the access, its response, and the data of a read. -/
structure Transaction where
  op : HostOp
  resp : Resp
  data : Option Word
deriving DecidableEq, Repr

/-- PEND when it is not none: the accepted command's opcode and operand bytes (R28). -/
structure Pending where
  op : Byte
  a : Byte
  b : Byte
deriving DecidableEq, Repr

/-- The state. The first nine fields are the spec's (10_state.md, section 1); the others are the model's own. -/
structure State where
  /-- KEY[0..15], the cipher key (R22). -/
  key : Block
  /-- ST[0..15], the AES state (R23). -/
  st : Block
  /-- W[0..43], the round-key file (R24). -/
  w : Schedule
  /-- KV, the schedule is valid (R26). -/
  kv : Bool
  /-- RESULT (R25). -/
  result : Byte
  /-- BUSY (R27). -/
  busy : Bool
  /-- PEND: the accepted command, or none (R28). -/
  pend : Option Pending
  /-- ERR, sticky (R29). -/
  err : Bool
  /-- ERRCODE, the first error's code (R29). -/
  errcode : BitVec 4
  /-- Model's own: what the host has yet to do, in program order (R88). Assumption log 2. -/
  host : List HostOp
  /-- Model's own: the transactions performed, newest first: what the host has been told. Assumption log 2. -/
  trace : List Transaction
  /-- Model's own: how many draws have been taken; indexes Config.draw. Assumption log 4. -/
  draws : Nat
  /-- Model's own: how many commands have been accepted; indexes Config.latency. Assumption log 3. -/
  accepts : Nat
  /-- Model's own: the port accesses performed since the last acceptance. Assumption log 3. -/
  waited : Nat
  /-- Model's own: how many accesses have arrived; indexes Config.arrival. Assumption log 5. -/
  arrivals : Nat
deriving DecidableEq, Repr

/-- The engine's inconsistent states. No run from reset reaches one (State.Inv rules them out); the spec gives no
meaning to them, so the machine stops there. Both are raised by the engine step alone, and both are safe: they
end a run the hardware cannot have. -/
inductive Fault where
  /-- BUSY = 1 while PEND = none, against R28. Safe. -/
  | busyWithoutCommand
  /-- PEND holds a command that the checks of R82 to R84 refuse, so that it was never accepted. Safe. -/
  | pendingNotLegal
deriving DecidableEq, Repr

/-- Refusals. Every command has its meaning, so no arm of exec raises one. -/
inductive Refusal where
  /-- An instruction without a meaning, by its mnemonic; raised by exec's refused arms, of which there is none. Safe. -/
  | notModelled (mnemonic : String)
deriving DecidableEq, Repr

/-- The data registers and KV of a state. -/
def State.data (s : State) : Data :=
  { key := s.key, st := s.st, w := s.w, kv := s.kv, result := s.result }

/-- The state right after reset (R37, R210): everything 0, nothing pending, and nothing from the host yet. -/
def State.reset : State where
  key := Vector.replicate 16 0
  st := Vector.replicate 16 0
  w := Vector.replicate 44 0
  kv := false
  result := 0
  busy := false
  pend := none
  err := false
  errcode := 0
  host := []
  trace := []
  draws := 0
  accepts := 0
  waited := 0
  arrivals := 0

/-- The reset state with a host program waiting: where every run starts (R213). -/
def State.start (program : List HostOp) : State := { State.reset with host := program }

end Sys2Proof.Machine
end

