-- ==== Sys2Proof/Machine/Operands.lean ====
section
/-! DEFINITION. The operand forms of a command (30_encoding.md R80, R81, R84) and the bytes of words and blocks
(00_scope.md R12, R13; 20_memory.md R52). -/

namespace Sys2Proof.Machine

/-- R81: the opcodes that use operand A. -/
def usesA : Instr → Bool
  | .nop => false
  | .sbox _ => true
  | .invsbox _ => true
  | .rcon _ => true
  | .gfmul _ _ => true
  | .expand => false
  | .subbytes => false
  | .invsubbytes => false
  | .shiftrows => false
  | .invshiftrows => false
  | .mixcolumns => false
  | .invmixcolumns => false
  | .addroundkey _ => true
  | .encrypt => false
  | .decrypt => false
  | .zeroize => false

/-- R81: the opcodes that use operand B. -/
def usesB : Instr → Bool
  | .nop => false
  | .sbox _ => false
  | .invsbox _ => false
  | .rcon _ => false
  | .gfmul _ _ => true
  | .expand => false
  | .subbytes => false
  | .invsubbytes => false
  | .shiftrows => false
  | .invshiftrows => false
  | .mixcolumns => false
  | .invmixcolumns => false
  | .addroundkey _ => false
  | .encrypt => false
  | .decrypt => false
  | .zeroize => false

/-- The triple a CMD write puts in PEND (R57). -/
def Pending.ofWord (v : Word) : Pending := { op := opField v, a := aField v, b := bField v }

/-- The command word of a pending triple: Z was checked to be 0 (R57, R82). -/
def Pending.word (p : Pending) : Word := commandWord p.b p.a p.op

/-- An operand used as an index 0..10 of the Rcon ROM or of the round keys. For an operand in the range of R84
it is the operand itself. -/
def index11 (a : Byte) : Fin 11 := Fin.ofNat 11 a.toNat

/-- R12: byte j of a word; byte 0 is the most significant. -/
def byteOf (w : Word) (j : Fin 4) : Byte := w.extractLsb' (24 - 8 * j.val) 8

/-- R12: word(b0, b1, b2, b3), which is b0<<24 | b1<<16 | b2<<8 | b3. -/
def wordOf (b0 b1 b2 b3 : Byte) : Word :=
  b0.setWidth 32 <<< 24 ||| b1.setWidth 32 <<< 16 ||| b2.setWidth 32 <<< 8 ||| b3.setWidth 32

/-- R13: s[r][c], the byte in row r and column c, is byte r + 4c. -/
def cell (S : Block) (r c : Fin 4) : Byte := S[r.val + 4 * c.val]

/-- The block whose byte in row r and column c is f r c (R13). -/
def ofCells (f : Fin 4 → Fin 4 → Byte) : Block :=
  Vector.ofFn fun i => f (Fin.ofNat 4 i.val) (Fin.ofNat 4 (i.val / 4))

/-- R52: the register word j of a block, its lowest-numbered byte in bits 31:24. -/
def blockWord (S : Block) (j : Fin 4) : Word :=
  wordOf (cell S 0 j) (cell S 1 j) (cell S 2 j) (cell S 3 j)

/-- A block with its four bytes 4j..4j+3 taken from word v, byte 0 first (R52, R58, R59). -/
def setBlockWord (S : Block) (j : Fin 4) (v : Word) : Block :=
  ofCells fun r c => if c = j then byteOf v r else cell S r c

/-- The four words of a block in order (R52). -/
def blockOfWords (w0 w1 w2 w3 : Word) : Block :=
  ofCells fun r c => byteOf (#v[w0, w1, w2, w3][c.val]) r

end Sys2Proof.Machine
end

