-- ==== Sys2Proof/Machine/Ops.lean ====
section
/-! DEFINITION. The named operations over the state: raising an error and clearing it, acceptance and retirement
of a command, reset, and the register updates the commands share. The block has no traps (60_exceptions.md R187):
raise is the one shared operation for every error, and clearErr the one way back (R188). -/

namespace Sys2Proof.Machine

/-- The errors a port write can raise (60_exceptions.md R180). -/
inductive CmdError where
  /-- Raised by a CMD write that R82 or R83 refuses. -/
  | illegalCmd
  /-- Raised by a CMD write whose operand is out of range (R84). -/
  | badOperand
  /-- Raised by a CMD, KEY or STATE write while BUSY = 1 (R57 to R59). -/
  | busyWrite
deriving DecidableEq, Repr

/-- R180: the code of each error. -/
def CmdError.code : CmdError → BitVec 4
  | .illegalCmd => 1
  | .badOperand => 2
  | .busyWrite => 3

/-- R16, R29: raise sets ERR, and records the code only if ERR was 0. Nothing else changes. -/
def State.raise (e : CmdError) (s : State) : State :=
  { s with err := true, errcode := if s.err then s.errcode else e.code }

/-- R29, R30, R188: clear ERR and ERRCODE. -/
def State.clearErr (s : State) : State := { s with err := false, errcode := 0 }

/-- R57: a command is accepted; the count of accesses waited for its completion starts again. -/
def State.accept (p : Pending) (s : State) : State :=
  { s with pend := some p, busy := true, accepts := s.accepts + 1, waited := 0 }

/-- R66: the last line of a completion. -/
def State.retire (s : State) : State := { s with pend := none, busy := false }

/-- R210, R211: the reset state, whatever was running. What the host has yet to do waits (R212). -/
def State.resetBlock (s : State) : State :=
  { State.reset with
    host := s.host, trace := s.trace, draws := s.draws, accepts := s.accepts, waited := s.waited,
    arrivals := s.arrivals }

/-- RESULT is written (R25). -/
def State.setResult (v : Byte) (s : State) : State := { s with result := v }

/-- ST is written (R23). -/
def State.setSt (b : Block) (s : State) : State := { s with st := b }

/-- KEY is written by the host, which clears KV (R26, R58). -/
def State.setKey (k : Block) (s : State) : State := { s with key := k, kv := false }

/-- W is written in full and KV set (R24, R26). -/
def State.setSchedule (w : Schedule) (s : State) : State := { s with w := w, kv := true }

/-- KEY, W, KV, ST and RESULT are cleared (R171). -/
def State.zeroizeData (s : State) : State :=
  { s with
    key := Vector.replicate 16 0, w := Vector.replicate 44 0, kv := false, st := Vector.replicate 16 0, result := 0 }

/-- One draw is used up (R63). -/
def State.countDraw (s : State) : State := { s with draws := s.draws + 1 }

/-- The host is told of a transaction. -/
def State.record (t : Transaction) (s : State) : State := { s with trace := t :: s.trace }

end Sys2Proof.Machine
end

