-- ==== Sys2Proof/Machine/GfArith.lean ====
section
/-! DEFINITION. The GF(2^8) multiplier and the GFMUL command (41_gf_arith.md). -/

namespace Sys2Proof.Machine

/-- One step of R120 on a: shift left in 8 bits, and XOR with 0x1B if the bit shifted out was 1. -/
def gfShift (a : Byte) : Byte := if a.getLsbD 7 then (a <<< 1) ^^^ 0x1B else a <<< 1

/-- The loop of R120, n rounds of it, with the accumulator p. -/
def gfLoop : Nat → Byte → Byte → Byte → Byte
  | 0, _, _, p => p
  | n + 1, a, b, p => gfLoop n (gfShift a) (b >>> 1) (if b.getLsbD 0 then p ^^^ a else p)

/-- R120: gfmul(a, b), eight rounds from p = 0. -/
def gfmul (a b : Byte) : Byte := gfLoop 8 a b 0

/-- R121: xtime(a) = gfmul(a, 0x02). -/
def xtime (a : Byte) : Byte := gfmul a 0x02

/-- GFMUL a, b (R122): RESULT <- gfmul(A, B). -/
def execGfmul (a b : Byte) (s : State) : Host.Outcome State Fault Refusal :=
  .next (s.setResult (gfmul a b))

end Sys2Proof.Machine
end

