-- ==== Sys2Proof/Machine/KeySchedule.lean ====
section
/-! DEFINITION. Key expansion, the EXPAND command and the implicit expansion (42_key_schedule.md). -/

namespace Sys2Proof.Machine

/-- RotWord (R130): byte 1 moves to position 0, byte 0 to position 3. -/
def rotWord (t : Word) : Word := wordOf (byteOf t 1) (byteOf t 2) (byteOf t 3) (byteOf t 0)

/-- SubWord (R130): SBOX on every byte. -/
def subWord (t : Word) : Word :=
  wordOf (sboxRom (byteOf t 0)) (sboxRom (byteOf t 1)) (sboxRom (byteOf t 2)) (sboxRom (byteOf t 3))

/-- The word w[i] from w[i-1] and w[i-4] (R130). At the multiples of 4 from 4 to 40, i/4 is 1..10, so the index
of RCON is i/4 itself and entry 0 is never read. -/
def nextWord (i : Nat) (previous fourBack : Word) : Word :=
  (if i % 4 = 0 then
    subWord (rotWord previous) ^^^ wordOf (rconRom (Fin.ofNat 11 (i / 4))) 0 0 0
  else previous) ^^^ fourBack

/-- The words up to w[i-1], newest first, with w[i] put before them (R130). -/
def extendSchedule (i : Nat) (ws : List Word) : List Word := nextWord i (ws.getD 0 0) (ws.getD 3 0) :: ws

/-- The words w[n+3], …, w[0] of the expansion of K, newest first (R130). -/
def scheduleWords (K : Block) : Nat → List Word
  | 0 => [blockWord K 3, blockWord K 2, blockWord K 1, blockWord K 0]
  | n + 1 => extendSchedule (n + 4) (scheduleWords K n)

/-- R130: expand(K), the words w[0..43]. -/
def expand (K : Block) : Schedule := Vector.ofFn fun i => (scheduleWords K 40).getD (43 - i.val) 0

/-- W <- expand(KEY); KV <- 1 (R131). -/
def State.expandKey (s : State) : State := s.setSchedule (expand s.key)

/-- R132: expand only if KV = 0. -/
def State.ensureSchedule (s : State) : State := if s.kv then s else s.expandKey

/-- EXPAND (R131). -/
def execExpand (s : State) : Host.Outcome State Fault Refusal := .next s.expandKey

end Sys2Proof.Machine
end

