-- ==== Sys2Proof/Machine/RoundPrimitives.lean ====
section
/-! DEFINITION. The round primitives and their eight commands (43_round_primitives.md). Each primitive is a pure
function on a 16-byte state; its command applies it to ST in place. -/

namespace Sys2Proof.Machine

/-- SubBytes (R140). -/
def subBytes (S : Block) : Block := Vector.ofFn fun i => sboxRom S[i.val]

/-- InvSubBytes (R140). -/
def invSubBytes (S : Block) : Block := Vector.ofFn fun i => invSboxRom S[i.val]

/-- ShiftRows (R143): s'[r][c] = s[r][(c + r) mod 4]; addition in Fin 4 is modulo 4. -/
def shiftRows (S : Block) : Block := ofCells fun r c => cell S r (c + r)

/-- InvShiftRows (R143): s'[r][c] = s[r][(c - r) mod 4]; subtraction in Fin 4 is modulo 4. -/
def invShiftRows (S : Block) : Block := ofCells fun r c => cell S r (c - r)

/-- The matrix M of R146. -/
def mixMatrix : Vector (Vector Byte 4) 4 :=
  #v[#v[0x02, 0x03, 0x01, 0x01],
     #v[0x01, 0x02, 0x03, 0x01],
     #v[0x01, 0x01, 0x02, 0x03],
     #v[0x03, 0x01, 0x01, 0x02]]

/-- The matrix Minv of R147. -/
def invMixMatrix : Vector (Vector Byte 4) 4 :=
  #v[#v[0x0e, 0x0b, 0x0d, 0x09],
     #v[0x09, 0x0e, 0x0b, 0x0d],
     #v[0x0d, 0x09, 0x0e, 0x0b],
     #v[0x0b, 0x0d, 0x09, 0x0e]]

/-- Every column of S multiplied by the matrix m over GF(2^8) (R146). -/
def mixWith (m : Vector (Vector Byte 4) 4) (S : Block) : Block :=
  ofCells fun r c =>
    gfmul m[r.val][0] (cell S 0 c) ^^^ gfmul m[r.val][1] (cell S 1 c) ^^^
      gfmul m[r.val][2] (cell S 2 c) ^^^ gfmul m[r.val][3] (cell S 3 c)

/-- MixColumns (R146). -/
def mixColumns (S : Block) : Block := mixWith mixMatrix S

/-- InvMixColumns (R147). -/
def invMixColumns (S : Block) : Block := mixWith invMixMatrix S

/-- W[4r + c] (R150). -/
def roundWord (W : Schedule) (r : Fin 11) (c : Fin 4) : Word := W[4 * r.val + c.val]

/-- AddRoundKey (R150): column c is XORed with word W[4r + c], row j with that word's byte j. -/
def addRoundKey (S : Block) (W : Schedule) (r : Fin 11) : Block :=
  ofCells fun j c => cell S j c ^^^ byteOf (roundWord W r c) j

/-- SUBBYTES (R141). -/
def execSubbytes (s : State) : Host.Outcome State Fault Refusal := .next (s.setSt (subBytes s.st))

/-- INVSUBBYTES (R142). -/
def execInvsubbytes (s : State) : Host.Outcome State Fault Refusal := .next (s.setSt (invSubBytes s.st))

/-- SHIFTROWS (R144). -/
def execShiftrows (s : State) : Host.Outcome State Fault Refusal := .next (s.setSt (shiftRows s.st))

/-- INVSHIFTROWS (R145). -/
def execInvshiftrows (s : State) : Host.Outcome State Fault Refusal := .next (s.setSt (invShiftRows s.st))

/-- MIXCOLUMNS (R148). -/
def execMixcolumns (s : State) : Host.Outcome State Fault Refusal := .next (s.setSt (mixColumns s.st))

/-- INVMIXCOLUMNS (R149). -/
def execInvmixcolumns (s : State) : Host.Outcome State Fault Refusal := .next (s.setSt (invMixColumns s.st))

/-- The implicit expansion, then ST replaced by f of ST and W (R132): the shape ADDROUNDKEY, ENCRYPT and DECRYPT
share. -/
def State.withSchedule (f : Block → Schedule → Block) (s : State) : State :=
  s.ensureSchedule.setSt (f s.ensureSchedule.st s.ensureSchedule.w)

/-- ADDROUNDKEY r (R151) for r in 0..10; any other r raises BAD_OPERAND and leaves ST alone. -/
def execAddroundkey (r : Byte) (s : State) : Host.Outcome State Fault Refusal :=
  if (Instr.addroundkey r).wellFormed then .next (s.withSchedule fun S W => addRoundKey S W (index11 r))
  else .next (s.raise .badOperand)

end Sys2Proof.Machine
end

