-- ==== Sys2Proof/Machine/BlockCipher.lean ====
section
/-! DEFINITION. The cipher and its inverse, and the ENCRYPT and DECRYPT commands (44_block_cipher.md). -/

namespace Sys2Proof.Machine

/-- The rounds 1..9 in increasing order (R160). -/
def middleRounds : List (Fin 11) := [1, 2, 3, 4, 5, 6, 7, 8, 9]

/-- One of the rounds 1..9 of Cipher (R160). -/
def cipherRound (W : Schedule) (S : Block) (round : Fin 11) : Block :=
  addRoundKey (mixColumns (shiftRows (subBytes S))) W round

/-- R160: Cipher(S, W). Round 10 has no MixColumns. -/
def cipher (S : Block) (W : Schedule) : Block :=
  addRoundKey (shiftRows (subBytes (middleRounds.foldl (cipherRound W) (addRoundKey S W 0)))) W 10

/-- One of the rounds 9..1 of InvCipher (R161): AddRoundKey comes before InvMixColumns. -/
def invCipherRound (W : Schedule) (S : Block) (round : Fin 11) : Block :=
  invMixColumns (addRoundKey (invSubBytes (invShiftRows S)) W round)

/-- R161: InvCipher(S, W), the rounds in decreasing order. -/
def invCipher (S : Block) (W : Schedule) : Block :=
  addRoundKey (invSubBytes (invShiftRows (middleRounds.reverse.foldl (invCipherRound W) (addRoundKey S W 10)))) W 0

/-- ENCRYPT (R163). -/
def execEncrypt (s : State) : Host.Outcome State Fault Refusal := .next (s.withSchedule cipher)

/-- DECRYPT (R164): all 16 bytes of InvCipher, no pad removed. -/
def execDecrypt (s : State) : Host.Outcome State Fault Refusal := .next (s.withSchedule invCipher)

end Sys2Proof.Machine
end

