-- ==== Sys2Proof/Machine/Control.lean ====
section
/-! DEFINITION. The control commands NOP and ZEROIZE (45_control.md). -/

namespace Sys2Proof.Machine

/-- NOP (R170): no state changes; the engine step retires it as it does every command. -/
def execNop (s : State) : Host.Outcome State Fault Refusal := .next s

/-- ZEROIZE (R171): KEY, W, KV, ST and RESULT are cleared; ERR and ERRCODE are not. -/
def execZeroize (s : State) : Host.Outcome State Fault Refusal := .next s.zeroizeData

end Sys2Proof.Machine
end

