-- ==== Sys2Proof/Machine/Flags.lean ====
section
/-! DEFINITION. The STATUS register (10_state.md R30): the flags BUSY, KV and ERR and the code ERRCODE as the host
reads them, and the write that clears the error. The block has no condition codes (R33). -/

namespace Sys2Proof.Machine

/-- A flag as a word: 0 or 1. -/
def flagWord (b : Bool) : Word := (BitVec.ofBool b).setWidth 32

/-- R30: bit 0 BUSY, bit 1 KV, bit 2 ERR, bits 7:3 zero, bits 11:8 ERRCODE, bits 31:12 zero. -/
def State.statusWord (s : State) : Word :=
  s.errcode.setWidth 32 <<< 8 ||| flagWord s.err <<< 2 ||| flagWord s.kv <<< 1 ||| flagWord s.busy

/-- R30: a write of v to STATUS clears the error if v[2] = 1, and does nothing else. -/
def State.writeStatus (v : Word) (s : State) : State := if v.getLsbD 2 then s.clearErr else s

end Sys2Proof.Machine
end

