-- ==== Sys2Proof/Machine/Port.lean ====
section
/-! DEFINITION. The register port (20_memory.md): the register map, the access rules, and what each read and each
write does. The block has this one address space and no memory (R50). -/

namespace Sys2Proof.Machine

/-- The registers of the window (R51). -/
inductive Reg where
  | cmd
  | status
  | result
  | key (j : Fin 4)
  | state (j : Fin 4)
  | rk (i : Fin 44)
deriving DecidableEq, Repr

/-- R51: the register at a word-aligned offset; none where the window is unmapped. -/
def regAt (off : Offset) : Option Reg :=
  let n := off.toNat
  if n = 0x000 then some .cmd
  else if n = 0x004 then some .status
  else if n = 0x008 then some .result
  else if 0x010 ≤ n ∧ n < 0x020 then some (.key (Fin.ofNat 4 ((n - 0x010) / 4)))
  else if 0x020 ≤ n ∧ n < 0x030 then some (.state (Fin.ofNat 4 ((n - 0x020) / 4)))
  else if 0x100 ≤ n ∧ n < 0x1B0 then some (.rk (Fin.ofNat 44 ((n - 0x100) / 4)))
  else none

/-- R53, R54: the register an access reaches; none where the port rejects it for its width, its alignment or its
unmapped offset. -/
def select (size : Size) (off : Offset) : Option Reg :=
  if size = .word ∧ off.toNat % 4 = 0 then regAt off else none

/-- R63: the value of a read that is a draw. -/
def State.draw (s : State) : Word := Config.draw s.draws s.data

/-- The data of a read of each register (R30, R31, R56, R60 to R62). -/
def readReg (r : Reg) (s : State) : Word :=
  match r with
  | .cmd => 0
  | .status => s.statusWord
  | .result => if s.busy then s.draw else s.result.setWidth 32
  | .key _ => 0
  | .state j => if s.busy then s.draw else blockWord s.st j
  | .rk i => if s.busy then s.draw else if s.kv then s.w[i.val] else 0

/-- R63: the registers whose reads are draws while BUSY = 1. -/
def drawsWhenBusy (r : Reg) : Bool :=
  match r with
  | .cmd => false
  | .status => false
  | .result => true
  | .key _ => false
  | .state _ => true
  | .rk _ => true

/-- A read (R53 to R56, R60 to R62): its response and data. -/
def portRead (size : Size) (off : Offset) (s : State) : Resp × Word :=
  match select size off with
  | none => (.error, 0)
  | some r => (.okay, readReg r s)

/-- The state after a read: no read changes any state of the block (R64); a draw is used up (R63). -/
def State.afterRead (size : Size) (off : Offset) (s : State) : State :=
  match select size off with
  | none => s
  | some r => if s.busy && drawsWhenBusy r then s.countDraw else s

/-- The checks at issue, R82 and R83 and then R84, and the first that fails (R184). -/
def commandCheck (v : Word) : Except CmdError Instr :=
  match decode v with
  | .error _ => .error .illegalCmd
  | .ok i => if i.wellFormed then .ok i else .error .badOperand

/-- R57: a write of v to CMD. -/
def State.writeCmd (v : Word) (s : State) : State :=
  if s.busy then s.raise .busyWrite
  else match commandCheck v with
    | .error e => s.raise e
    | .ok _ => s.accept (Pending.ofWord v)

/-- R58: a write of v to KEYj. -/
def State.writeKey (j : Fin 4) (v : Word) (s : State) : State :=
  if s.busy then s.raise .busyWrite else s.setKey (setBlockWord s.key j v)

/-- R59: a write of v to STATEj. -/
def State.writeState (j : Fin 4) (v : Word) (s : State) : State :=
  if s.busy then s.raise .busyWrite else s.setSt (setBlockWord s.st j v)

/-- A write to each register (R30, R55, R57 to R59). -/
def writeReg (r : Reg) (v : Word) (s : State) : Resp × State :=
  match r with
  | .cmd => (.okay, s.writeCmd v)
  | .status => (.okay, s.writeStatus v)
  | .result => (.error, s)
  | .key j => (.okay, s.writeKey j v)
  | .state j => (.okay, s.writeState j v)
  | .rk _ => (.error, s)

/-- A write (R53 to R55, R57 to R59, R30): its response and the state after it. -/
def portWrite (size : Size) (off : Offset) (v : Word) (s : State) : Resp × State :=
  match select size off with
  | none => (.error, s)
  | some r => writeReg r v s

end Sys2Proof.Machine
end

