-- ==== Sys2Proof/Machine/Engine.lean ====
section
/-! DEFINITION. The engine's side of a step: when the pending command completes, and its completion
(20_memory.md R66). -/

namespace Sys2Proof.Machine

/-- LAT for the command last accepted: the accesses performed before it completes (R9, R230). -/
def State.latency (s : State) : Nat :=
  match s.pend with
  | none => 0
  | some p => Config.latency s.accepts p.op p.a p.b s.data

/-- Whether the engine takes the next step: only while BUSY = 1 (R66), and then once LAT accesses have been
performed, or at once if the host has nothing waiting. -/
def State.engineMoves (s : State) : Bool :=
  if s.busy then
    match s.host with
    | [] => true
    | _ :: _ => decide (s.latency ≤ s.waited)
  else false

/-- The command in PEND (R66). -/
def State.pendingCommand (s : State) : Except Fault Instr :=
  match s.pend with
  | none => .error .busyWithoutCommand
  | some p =>
    match commandCheck p.word with
    | .error _ => .error .pendingNotLegal
    | .ok i => .ok i

/-- What the engine step adds around a completion: PEND <- none; BUSY <- 0 (R66). -/
def retireNext : Host.Outcome State Fault Refusal → Host.Outcome State Fault Refusal
  | .next t => .next t.retire
  | .fault r => .fault r
  | .refused r => .refused r

/-- R66: the completion step, one atomic transition. -/
def State.engineStep (s : State) : Host.Outcome State Fault Refusal :=
  match s.pendingCommand with
  | .error f => .fault f
  | .ok i => retireNext (exec i s)

end Sys2Proof.Machine
end

