-- ==== Sys2Proof/Machine/HostPort.lean ====
section
/-! DEFINITION. The host's side of a step: which of its accesses reaches the port next (20_memory.md R67, R68), and
what performing it does (R15, 30_encoding.md R88; reset, 70_reset_and_hazards.md R210 to R212). -/

namespace Sys2Proof.Machine

/-- Whether a write may be posted, and so be overtaken when HOST_ORDERED is false (R68). A host waits for a read,
and nothing passes a poll or a reset. -/
def HostOp.isWrite : HostOp → Bool
  | .read _ _ => false
  | .write _ _ _ => true
  | .poll => false
  | .reset => false

/-- How many of the first accesses may reach the port next: the leading writes, and the first access that is no
write. -/
def mayArrive : List HostOp → Nat
  | [] => 0
  | op :: rest => if op.isWrite && !rest.isEmpty then mayArrive rest + 1 else 1

/-- The place in the host's list of the access that reaches the port next: the first if HOST_ORDERED, else a free
choice among those that may arrive. Where only one may arrive there is no choice. -/
def State.arrivalIndex (s : State) : Nat :=
  if mayArrive s.host ≤ 1 then 0
  else if Config.hostOrdered then 0
  else Config.arrival s.arrivals % mayArrive s.host

/-- The access that reaches the port next, and what the host has yet to do after it. -/
def State.nextAccess (s : State) : Option (HostOp × List HostOp) :=
  match s.host[s.arrivalIndex]? with
  | none => none
  | some op => some (op, s.host.eraseIdx s.arrivalIndex)

/-- What the block does when an access is performed, and what the host is told. -/
def State.perform (op : HostOp) (s : State) : State :=
  match op with
  | .read size off =>
    (s.afterRead size off).record
      { op := op, resp := (portRead size off s).1, data := some (portRead size off s).2 }
  | .write size off v =>
    (portWrite size off v s).2.record { op := op, resp := (portWrite size off v s).1, data := none }
  | .poll => s.record { op := op, resp := .okay, data := some s.statusWord }
  | .reset => s.resetBlock

/-- An access leaves the host's list and is counted. A poll stays in the list while it finds BUSY = 1 (R88). -/
def State.takeAccess (op : HostOp) (rest : List HostOp) (s : State) : State :=
  { s with
    host := if op = .poll ∧ s.busy = true then s.host else rest
    waited := s.waited + 1
    arrivals := s.arrivals + 1 }

/-- The host's step: the next access is performed; with none waiting, nothing happens (R192). -/
def State.hostStep (s : State) : State :=
  match s.nextAccess with
  | none => s
  | some (op, rest) => (s.takeAccess op rest).perform op

end Sys2Proof.Machine
end

