-- ==== Sys2Proof/Machine/Step.lean ====
section
/-! DEFINITION. One step of the block: a completion step of the engine or one access of the host, in one total
order (20_memory.md R66, R67; 60_exceptions.md R185). -/

namespace Sys2Proof.Machine

/-- The step. -/
def step (s : State) : Host.Outcome State Fault Refusal :=
  if s.engineMoves then s.engineStep else .next s.hostStep

/-- The state whose very next step runs the command word of an opcode-table row. The block fetches nothing (R21,
R69): a command runs once it is in PEND, so an acceptable word is put there with BUSY = 1, as its CMD write does
(R57), and the host has nothing else to do. A word that the checks refuse is never pending: for it the next step is
its CMD write, which raises its error (R57). -/
def State.withFetchWord (s : State) (nbits w : Nat) : State :=
  match commandCheck (tableWord nbits w) with
  | .ok _ => { s with host := [], busy := true, pend := some (Pending.ofWord (tableWord nbits w)) }
  | .error _ => { s with host := [.write .word 0x000 (tableWord nbits w)], busy := false, pend := none }

end Sys2Proof.Machine
end

