-- ==== Sys2Proof/Machine/HostProgram.lean ====
section
/-! DEFINITION. The notation of host programs (30_encoding.md R87 to R89): commands as text, and the
pseudo-instructions as the accesses they stand for. -/

namespace Sys2Proof.Machine

/-- R87: a command's mnemonic. -/
def mnemonic : Instr → String
  | .nop => "NOP"
  | .sbox _ => "SBOX"
  | .invsbox _ => "INVSBOX"
  | .rcon _ => "RCON"
  | .gfmul _ _ => "GFMUL"
  | .expand => "EXPAND"
  | .subbytes => "SUBBYTES"
  | .invsubbytes => "INVSUBBYTES"
  | .shiftrows => "SHIFTROWS"
  | .invshiftrows => "INVSHIFTROWS"
  | .mixcolumns => "MIXCOLUMNS"
  | .invmixcolumns => "INVMIXCOLUMNS"
  | .addroundkey _ => "ADDROUNDKEY"
  | .encrypt => "ENCRYPT"
  | .decrypt => "DECRYPT"
  | .zeroize => "ZEROIZE"

/-- The offset of register j of a block of word registers at base. -/
def wordOffset (base : Offset) (j : Fin 4) : Offset := base + BitVec.ofNat 12 (4 * j.val)

/-- R88: WR off, v. -/
def wr (off : Offset) (v : Word) : HostOp := .write .word off v

/-- R88: RD off. -/
def rd (off : Offset) : HostOp := .read .word off

/-- R88: ISSUE cmd, a CMD write of the assembled word. -/
def issue (i : Instr) : HostOp := wr 0x000 (encode i)

/-- Four writes of a 16-byte value, in index order, from base on. -/
def writeBlock (base : Offset) (b : Block) : List HostOp :=
  [wr (wordOffset base 0) (blockWord b 0), wr (wordOffset base 1) (blockWord b 1),
   wr (wordOffset base 2) (blockWord b 2), wr (wordOffset base 3) (blockWord b 3)]

/-- R89: LOADKEY k. -/
def loadKey (k : Block) : List HostOp := writeBlock 0x010 k

/-- R89: LOADBLK b. -/
def loadBlk (b : Block) : List HostOp := writeBlock 0x020 b

/-- R89: READBLK, the reads of STATE0..STATE3. -/
def readBlk : List HostOp :=
  [rd (wordOffset 0x020 0), rd (wordOffset 0x020 1), rd (wordOffset 0x020 2), rd (wordOffset 0x020 3)]

/-- R89: the block b that READBLK -> b gives, from the words of the four reads in order. -/
def readBlkValue (w0 w1 w2 w3 : Word) : Block := blockOfWords w0 w1 w2 w3

/-- R89: RUN cmd. -/
def runCmd (i : Instr) : List HostOp := [issue i, .poll]

/-- R89: CLRERR. -/
def clrErr : HostOp := wr 0x004 0x00000004

/-- R89: ENC k, p. -/
def encProgram (k p : Block) : List HostOp := loadKey k ++ loadBlk p ++ runCmd .encrypt ++ readBlk

/-- R89: DEC k, c. -/
def decProgram (k c : Block) : List HostOp := loadKey k ++ loadBlk c ++ runCmd .decrypt ++ readBlk

end Sys2Proof.Machine
end

