-- ==== Sys2Proof/Safety.lean ====
section
/-! DEFINITION. What every state of a run satisfies, in the terms the claims use. -/

namespace Sys2Proof.Machine

/-- R26: the invariant the block keeps, KV = 1 => W = expand(KEY). -/
def State.ScheduleValid (s : State) : Prop := s.kv = true → s.w = expand s.key

/-- R28: BUSY = 1 if and only if PEND is not none. -/
def State.BusyIffPending (s : State) : Prop := s.busy = true ↔ s.pend ≠ none

/-- The pending command passed the checks of R82 to R84 when it was accepted (R57). -/
def State.PendingLegal (s : State) : Prop := ∀ p, s.pend = some p → ∃ i, commandCheck p.word = .ok i

/-- R180: ERRCODE is 0 exactly while ERR = 0, and never a reserved code. -/
def State.CodeLegal (s : State) : Prop :=
  (s.err = false → s.errcode = 0) ∧ (s.err = true → s.errcode = 1 ∨ s.errcode = 2 ∨ s.errcode = 3)

/-- The invariant of the block. -/
structure State.Inv (s : State) : Prop where
  schedule : s.ScheduleValid
  pending : s.BusyIffPending
  legal : s.PendingLegal
  code : s.CodeLegal

/-- The host's access op reaches the port in the next step, with rest left to do; the engine does not move. -/
def State.HostMoves (s : State) (op : HostOp) (rest : List HostOp) : Prop :=
  s.engineMoves = false ∧ s.nextAccess = some (op, rest)

end Sys2Proof.Machine
end

