-- ==== Sys2Proof/Certificates/Slice0/Obligations.lean ====
section
/-! DEFINITION. The statements for the provers, one Prop each, and the few words they are stated in
(Sys2Proof.Claim). Each docstring names the rule or section of spec/ that it formalises. -/

open Sys2Proof Sys2Proof.Machine

/-- R16: ERR is set, and ERRCODE takes the code c only if ERR was 0. -/
def Sys2Proof.Claim.erred (c : BitVec 4) (s : State) : State :=
  { s with err := true, errcode := if s.err then s.errcode else c }

/-- s after the port has told the host of an access. -/
def Sys2Proof.Claim.told (op : HostOp) (resp : Resp) (data : Option Word) (s : State) : State :=
  { s with trace := { op := op, resp := resp, data := data } :: s.trace }

/-- R12: byte j of a word, byte 0 in bits 31:24. -/
def Sys2Proof.Claim.byte (v : Word) (j : Fin 4) : Byte := (v >>> (24 - 8 * j.val)).setWidth 8

/-- The OP, A, B and Z fields of a command word as numbers (30_encoding.md R80). -/
def Sys2Proof.Claim.op (v : Word) : Nat := v.toNat % 256
def Sys2Proof.Claim.a (v : Word) : Nat := v.toNat / 256 % 256
def Sys2Proof.Claim.b (v : Word) : Nat := v.toNat / 65536 % 256
def Sys2Proof.Claim.z (v : Word) : Nat := v.toNat / 16777216

/-- R82 and R83: the words that raise ILLEGAL_CMD. A is used by SBOX, INVSBOX, RCON, GFMUL and ADDROUNDKEY, B by
GFMUL alone (R81). -/
def Sys2Proof.Claim.Illegal (v : Word) : Prop :=
  0x10 ≤ Claim.op v ∨ Claim.z v ≠ 0 ∨
    (Claim.op v ∉ [0x01, 0x02, 0x03, 0x04, 0x0C] ∧ Claim.a v ≠ 0) ∨
    (Claim.op v ≠ 0x04 ∧ Claim.b v ≠ 0)

/-- R84: the operand ranges of RCON and ADDROUNDKEY are not met. -/
def Sys2Proof.Claim.OutOfRange (v : Word) : Prop :=
  (Claim.op v = 0x03 ∧ ¬(1 ≤ Claim.a v ∧ Claim.a v ≤ 10)) ∨ (Claim.op v = 0x0C ∧ 10 < Claim.a v)

/-- The rows of spec/opcode_table.json: mnemonic, match and mask. -/
def Sys2Proof.Claim.opcodeTable : List (String × Word × Word) := [
  ("NOP", 0x00000000, 0xFFFFFFFF), ("SBOX", 0x00000001, 0xFFFF00FF), ("INVSBOX", 0x00000002, 0xFFFF00FF),
  ("RCON", 0x00000003, 0xFFFF00FF), ("GFMUL", 0x00000004, 0xFF0000FF), ("EXPAND", 0x00000005, 0xFFFFFFFF),
  ("SUBBYTES", 0x00000006, 0xFFFFFFFF), ("INVSUBBYTES", 0x00000007, 0xFFFFFFFF),
  ("SHIFTROWS", 0x00000008, 0xFFFFFFFF), ("INVSHIFTROWS", 0x00000009, 0xFFFFFFFF),
  ("MIXCOLUMNS", 0x0000000A, 0xFFFFFFFF), ("INVMIXCOLUMNS", 0x0000000B, 0xFFFFFFFF),
  ("ADDROUNDKEY", 0x0000000C, 0xFFFF00FF), ("ENCRYPT", 0x0000000D, 0xFFFFFFFF),
  ("DECRYPT", 0x0000000E, 0xFFFFFFFF), ("ZEROIZE", 0x0000000F, 0xFFFFFFFF)]

/-- How many command words are accepted as a command of which p holds. -/
noncomputable def Sys2Proof.Claim.countAccepted (p : Instr → Prop) : Nat :=
  Nat.card { v : Word // ∃ i, commandCheck v = .ok i ∧ p i }

/-- The carry-less product of two 8-bit polynomials over GF(2), or of one of 9 bits with one of 7. -/
def Sys2Proof.Claim.polyMul (x y : BitVec 16) : BitVec 16 :=
  (List.range 8).foldl (fun acc k => if y.getLsbD k then acc ^^^ (x <<< k) else acc) 0

/-- The affine map of R100: b ^ rotl8(b,1) ^ rotl8(b,2) ^ rotl8(b,3) ^ rotl8(b,4) ^ 0x63. -/
def Sys2Proof.Claim.affine (b : Byte) : Byte :=
  b ^^^ b.rotateLeft 1 ^^^ b.rotateLeft 2 ^^^ b.rotateLeft 3 ^^^ b.rotateLeft 4 ^^^ 0x63

/-- Commands completed one after another. -/
def Sys2Proof.Claim.execAll : List Instr → State → Host.Outcome State Fault Refusal
  | [], s => .next s
  | i :: rest, s =>
    match exec i s with
    | .next t => Claim.execAll rest t
    | .fault r => .fault r
    | .refused r => .refused r

/-- The offset of the j-th word register from base. -/
def Sys2Proof.Claim.off (base : Nat) (j : Nat) : Offset := BitVec.ofNat 12 (base + 4 * j)

/-- The command i is in PEND and the engine takes the next step. -/
def Sys2Proof.Claim.Completes (s : State) (i : Instr) : Prop :=
  s.engineMoves = true ∧ s.pendingCommand = .ok i

/-- The reset column of 10_state.md section 1. -/
def Sys2Proof.Claim.AllZero (t : State) : Prop :=
  (∀ i : Fin 16, t.key[i] = 0 ∧ t.st[i] = 0) ∧ (∀ i : Fin 44, t.w[i] = 0) ∧
  t.kv = false ∧ t.result = 0 ∧ t.busy = false ∧ t.pend = none ∧ t.err = false ∧ t.errcode = 0

/- ## Encoding -/

/-- One word of each opcode, written out from the opcode map and R80, decodes to its command (30_encoding.md). -/
def Obligations.SampleWordsDecode : Prop :=
  decode 0x00000000 = .ok .nop ∧ decode 0x00005301 = .ok (.sbox 0x53) ∧
  decode 0x0000ED02 = .ok (.invsbox 0xED) ∧ decode 0x00000A03 = .ok (.rcon 10) ∧
  decode 0x00835704 = .ok (.gfmul 0x57 0x83) ∧ decode 0x00000005 = .ok .expand ∧
  decode 0x00000006 = .ok .subbytes ∧ decode 0x00000007 = .ok .invsubbytes ∧
  decode 0x00000008 = .ok .shiftrows ∧ decode 0x00000009 = .ok .invshiftrows ∧
  decode 0x0000000A = .ok .mixcolumns ∧ decode 0x0000000B = .ok .invmixcolumns ∧
  decode 0x0000010C = .ok (.addroundkey 1) ∧ decode 0x0000000D = .ok .encrypt ∧
  decode 0x0000000E = .ok .decrypt ∧ decode 0x0000000F = .ok .zeroize

/-- Decoding the assembled word of any command gives the command back, and a well-formed one passes the checks at
issue (30_encoding.md sections 1 to 3 and 5). -/
def Obligations.DecodeInvertsEncode : Prop :=
  ∀ i : Instr, decode (encode i) = .ok i ∧ (i.wellFormed = true → commandCheck (encode i) = .ok i)

/-- Every word that decodes is the assembled word of its command: no word has two meanings and no command two words
(30_encoding.md, R86 and D8). -/
def Obligations.EncodeInvertsDecode : Prop :=
  ∀ (v : Word) (i : Instr), decode v = .ok i → encode i = v

/-- The decoder agrees with every row of spec/opcode_table.json: a word decodes to a command of a mnemonic exactly
when it matches that mnemonic's row. -/
def Obligations.DecodeFollowsOpcodeTable : Prop :=
  ∀ (v : Word) (name : String),
    (∃ i, decode v = .ok i ∧ mnemonic i = name) ↔
      ∃ row ∈ Claim.opcodeTable, row.1 = name ∧ v &&& row.2.2 = row.2.1

/-- How many words are legal, for each group of opcodes and in all (30_encoding.md R85, an inference the spec marks as
derived from R80 to R84). -/
def Obligations.LegalWordCount : Prop :=
  Nat.card Word = 256 * 256 * 256 * 256 ∧
  Claim.countAccepted (fun i => usesA i = false ∧ usesB i = false) = 11 ∧
  Claim.countAccepted (fun i => (∃ x, i = .sbox x) ∨ ∃ y, i = .invsbox y) = 512 ∧
  Claim.countAccepted (fun i => ∃ n, i = .rcon n) = 10 ∧
  Claim.countAccepted (fun i => ∃ a b, i = .gfmul a b) = 65536 ∧
  Claim.countAccepted (fun i => ∃ r, i = .addroundkey r) = 11 ∧
  Claim.countAccepted (fun _ => True) = 66080

/- ## Reset -/

/-- The value of every element in the reset state, and after a reset from any state, with a command pending or not
(10_state.md R37; reset as one transition is deduced from R212, assumption log 8). That the host's list of accesses is
kept is no part of R37: it is the model's choice (assumption log 1, and log 8). -/
def Obligations.ResetValues : Prop :=
  Claim.AllZero State.reset ∧
  ∀ s : State, Claim.AllZero (s.perform .reset) ∧ (s.perform .reset).host = s.host

/- ## Table lookups and the multiplier -/

/-- SBOX writes affine(inv(x)) to RESULT, where inv is the inverse in GF(2^8) and inv(0) = 0, and nothing else
(40_rom_lookup.md, the algebraic definition in R100 and the completion in R104). -/
def Obligations.SboxIsAffineInverse : Prop :=
  ∀ (s : State) (x : Byte), ∃ y : Byte, (x = 0 ∧ y = 0 ∨ gfmul x y = 1) ∧
    exec (.sbox x) s = .next { s with result := Claim.affine y }

/-- R103: SBOX and then INVSBOX of the result gives the byte back, and the other way round; both always complete
and write RESULT alone. -/
def Obligations.LookupsAreMutuallyInverse : Prop :=
  ∀ (s : State) (x : Byte),
    (∃ t, exec (.sbox x) s = .next t ∧ exec (.invsbox t.result) t = .next { s with result := x }) ∧
    (∃ t, exec (.invsbox x) s = .next t ∧ exec (.sbox t.result) t = .next { s with result := x })

/-- RCON i for i in 1..10 writes the round constant, 0x01 for i = 1 and then xtime of the one before, to RESULT and
nothing else (40_rom_lookup.md, R102 and R106). -/
def Obligations.RconCommand : Prop :=
  (∀ s : State, exec (.rcon 1) s = .next { s with result := 0x01 }) ∧
  (∀ (s : State) (i : Byte), 1 ≤ i.toNat → i.toNat ≤ 9 →
    ∃ v : Byte, exec (.rcon i) s = .next { s with result := v } ∧
      exec (.rcon (i + 1)) s = .next { s with result := gfmul v 0x02 })

/-- R120: GFMUL writes to RESULT the remainder of the product of a and b, as polynomials over GF(2), modulo 0x11B, and
nothing else. -/
def Obligations.GfmulIsProductModulo11B : Prop :=
  ∀ (s : State) (a b : Byte), ∃ v q : Byte,
    exec (.gfmul a b) s = .next { s with result := v } ∧
    Claim.polyMul (a.setWidth 16) (b.setWidth 16) = Claim.polyMul 0x11B (q.setWidth 16) ^^^ v.setWidth 16 ∧
    q.toNat < 128

/-- The field laws of gfmul, and xtime (41_gf_arith.md R121, an inference the spec marks as derived from R120). -/
def Obligations.GfmulFieldLaws : Prop :=
  (∀ a b : Byte, gfmul a b = gfmul b a) ∧
  (∀ a b c : Byte, gfmul a (gfmul b c) = gfmul (gfmul a b) c) ∧
  (∀ a b c : Byte, gfmul a (b ^^^ c) = gfmul a b ^^^ gfmul a c) ∧
  (∀ a : Byte, gfmul a 0 = 0 ∧ gfmul a 1 = a) ∧
  (∀ a : Byte, a ≠ 0 → ∃! b : Byte, gfmul a b = 1) ∧
  (∀ a : Byte, xtime a = gfmul a 0x02 ∧
    gfmul a 0x02 = (a <<< 1) ^^^ (if a.getLsbD 7 then 0x1B else 0x00))

/- ## The key schedule -/

/-- R130: EXPAND fills W by the recurrence, with the rotation first, then the substitution, then the round constant
into byte 0, and sets KV; nothing else changes. -/
def Obligations.ExpandRecurrence : Prop :=
  ∀ s : State, ∃ W : Schedule,
    exec .expand s = .next { s with w := W, kv := true } ∧
    (∀ (i : Nat) (_ : i < 4) (j : Fin 4), Claim.byte W[i] j = s.key[4 * i + j.val]) ∧
    (∀ (i : Nat) (_ : 4 ≤ i) (_ : i < 44), i % 4 ≠ 0 → W[i] = W[i - 1] ^^^ W[i - 4]) ∧
    (∀ (i : Nat) (_ : 4 ≤ i) (_ : i < 44), i % 4 = 0 → ∀ rc : Byte,
      exec (.rcon (BitVec.ofNat 8 (i / 4))) s = .next { s with result := rc } →
      Claim.byte W[i] 0 = sboxRom (Claim.byte W[i - 1] 1) ^^^ rc ^^^ Claim.byte W[i - 4] 0 ∧
      Claim.byte W[i] 1 = sboxRom (Claim.byte W[i - 1] 2) ^^^ Claim.byte W[i - 4] 1 ∧
      Claim.byte W[i] 2 = sboxRom (Claim.byte W[i - 1] 3) ^^^ Claim.byte W[i - 4] 2 ∧
      Claim.byte W[i] 3 = sboxRom (Claim.byte W[i - 1] 0) ^^^ Claim.byte W[i - 4] 3)

/-- R132: with KV = 0, ADDROUNDKEY, ENCRYPT and DECRYPT do what they would do after EXPAND; with KV = 1 they leave W
and KV as they are. -/
def Obligations.ImplicitExpansion : Prop :=
  ∀ (s : State) (i : Instr), i = .encrypt ∨ i = .decrypt ∨ (∃ r : Byte, r.toNat ≤ 10 ∧ i = .addroundkey r) →
    (s.kv = false → ∃ u t, exec .expand s = .next u ∧ exec i s = .next t ∧ exec i u = .next t) ∧
    (s.kv = true → ∃ t, exec i s = .next t ∧ t.w = s.w ∧ t.kv = true)

/-- ADDROUNDKEY, ENCRYPT and DECRYPT use expand(KEY) whether or not the host issued EXPAND, in every state that keeps
the invariant of R26, and change nothing but ST, W and KV (42_key_schedule.md section 2, 44_block_cipher.md
section 2). -/
def Obligations.KeyedCommandsUseExpandedKey : Prop :=
  ∀ s : State, s.ScheduleValid →
    exec .encrypt s =
      .next { s with st := cipher s.st (expand s.key), w := expand s.key, kv := true } ∧
    exec .decrypt s =
      .next { s with st := invCipher s.st (expand s.key), w := expand s.key, kv := true } ∧
    ∀ r : Byte, r.toNat ≤ 10 →
      exec (.addroundkey r) s =
        .next { s with st := addRoundKey s.st (expand s.key) (Fin.ofNat 11 r.toNat), w := expand s.key, kv := true }

/- ## The round primitives -/

/-- SUBBYTES and INVSUBBYTES substitute every byte of ST, undo each other (in R140 an inference the spec marks as
derived from R103), and change nothing else (43_round_primitives.md R140 to R142). -/
def Obligations.SubBytesCommands : Prop :=
  ∀ s : State,
    (∃ t, exec .subbytes s = .next t ∧ t = { s with st := t.st } ∧
      (∀ i : Fin 16, t.st[i] = sboxRom s.st[i]) ∧ exec .invsubbytes t = .next s) ∧
    (∃ t, exec .invsubbytes s = .next t ∧ t = { s with st := t.st } ∧
      (∀ i : Fin 16, t.st[i] = invSboxRom s.st[i]) ∧ exec .subbytes t = .next s)

/-- SHIFTROWS and INVSHIFTROWS rotate row r by r positions, left and right; the index permutations R143 lists; each
undoes the other, and SHIFTROWS four times is the identity (in R143 inferences the spec marks as derived); nothing else
changes (43_round_primitives.md R143 to R145). -/
def Obligations.ShiftRowsCommands : Prop :=
  ∀ s : State,
    (∃ t, exec .shiftrows s = .next t ∧ t = { s with st := t.st } ∧
      (∀ r c : Fin 4, t.st[r.val + 4 * c.val] = s.st[r.val + 4 * ((c.val + r.val) % 4)]) ∧
      t.st = #v[s.st[0], s.st[5], s.st[10], s.st[15], s.st[4], s.st[9], s.st[14], s.st[3],
        s.st[8], s.st[13], s.st[2], s.st[7], s.st[12], s.st[1], s.st[6], s.st[11]] ∧
      exec .invshiftrows t = .next s) ∧
    (∃ t, exec .invshiftrows s = .next t ∧ t = { s with st := t.st } ∧
      (∀ r c : Fin 4, t.st[r.val + 4 * c.val] = s.st[r.val + 4 * ((c.val + 4 - r.val) % 4)]) ∧
      t.st = #v[s.st[0], s.st[13], s.st[10], s.st[7], s.st[4], s.st[1], s.st[14], s.st[11],
        s.st[8], s.st[5], s.st[2], s.st[15], s.st[12], s.st[9], s.st[6], s.st[3]] ∧
      exec .shiftrows t = .next s) ∧
    Claim.execAll [.shiftrows, .shiftrows, .shiftrows, .shiftrows] s = .next s

/-- R146: MIXCOLUMNS multiplies each column of ST by the matrix of the rule, and changes nothing else. -/
def Obligations.MixColumnsCommand : Prop :=
  ∀ s : State, ∃ t, exec .mixcolumns s = .next t ∧ t = { s with st := t.st } ∧
    ∀ c : Fin 4, ∀ a0 a1 a2 a3 : Byte,
      s.st[4 * c.val] = a0 → s.st[4 * c.val + 1] = a1 → s.st[4 * c.val + 2] = a2 → s.st[4 * c.val + 3] = a3 →
      t.st[4 * c.val] = gfmul 0x02 a0 ^^^ gfmul 0x03 a1 ^^^ gfmul 0x01 a2 ^^^ gfmul 0x01 a3 ∧
      t.st[4 * c.val + 1] = gfmul 0x01 a0 ^^^ gfmul 0x02 a1 ^^^ gfmul 0x03 a2 ^^^ gfmul 0x01 a3 ∧
      t.st[4 * c.val + 2] = gfmul 0x01 a0 ^^^ gfmul 0x01 a1 ^^^ gfmul 0x02 a2 ^^^ gfmul 0x03 a3 ∧
      t.st[4 * c.val + 3] = gfmul 0x03 a0 ^^^ gfmul 0x01 a1 ^^^ gfmul 0x01 a2 ^^^ gfmul 0x02 a3

/-- INVMIXCOLUMNS multiplies each column of ST by the matrix of R147, changes nothing else, and undoes MIXCOLUMNS (in
R147 an inference the spec marks as derived) (43_round_primitives.md R147 and R149). -/
def Obligations.InvMixColumnsCommand : Prop :=
  ∀ s : State,
    (∃ t, exec .invmixcolumns s = .next t ∧ t = { s with st := t.st } ∧
      ∀ c : Fin 4, ∀ a0 a1 a2 a3 : Byte,
        s.st[4 * c.val] = a0 → s.st[4 * c.val + 1] = a1 → s.st[4 * c.val + 2] = a2 → s.st[4 * c.val + 3] = a3 →
        t.st[4 * c.val] = gfmul 0x0e a0 ^^^ gfmul 0x0b a1 ^^^ gfmul 0x0d a2 ^^^ gfmul 0x09 a3 ∧
        t.st[4 * c.val + 1] = gfmul 0x09 a0 ^^^ gfmul 0x0e a1 ^^^ gfmul 0x0b a2 ^^^ gfmul 0x0d a3 ∧
        t.st[4 * c.val + 2] = gfmul 0x0d a0 ^^^ gfmul 0x09 a1 ^^^ gfmul 0x0e a2 ^^^ gfmul 0x0b a3 ∧
        t.st[4 * c.val + 3] = gfmul 0x0b a0 ^^^ gfmul 0x0d a1 ^^^ gfmul 0x09 a2 ^^^ gfmul 0x0e a3) ∧
    Claim.execAll [.mixcolumns, .invmixcolumns] s = .next s

/-- MIXCOLUMNS applied four times is the identity, and a column of four equal bytes is unchanged by it
(43_round_primitives.md, the corner cases of R148). -/
def Obligations.MixColumnsFourTimesIsIdentity : Prop :=
  ∀ s : State,
    Claim.execAll [.mixcolumns, .mixcolumns, .mixcolumns, .mixcolumns] s = .next s ∧
    ∀ (c : Fin 4) (x : Byte), (∀ r : Fin 4, s.st[r.val + 4 * c.val] = x) →
      ∃ t, exec .mixcolumns s = .next t ∧ ∀ r : Fin 4, t.st[r.val + 4 * c.val] = x

/-- ADDROUNDKEY r, r in 0..10, XORs byte j of W[4r + c] into row j of column c of ST, is its own inverse (in R150 an
inference the spec marks as derived), and changes nothing else but by the implicit expansion (43_round_primitives.md
R150 and R151). -/
def Obligations.AddRoundKeyCommand : Prop :=
  ∀ (s : State) (r : Fin 11), ∃ t,
    exec (.addroundkey (BitVec.ofNat 8 r.val)) s = .next t ∧
    t = { s with st := t.st, w := if s.kv then s.w else expand s.key, kv := true } ∧
    (∀ j c : Fin 4, t.st[j.val + 4 * c.val] = s.st[j.val + 4 * c.val] ^^^ Claim.byte t.w[4 * r.val + c.val] j) ∧
    exec (.addroundkey (BitVec.ofNat 8 r.val)) t = .next { t with st := s.st }

/- ## The block cipher -/

/-- R160: ENCRYPT is ADDROUNDKEY 0, nine rounds of SUBBYTES, SHIFTROWS, MIXCOLUMNS, ADDROUNDKEY, and a last round
without MIXCOLUMNS, done as one command. -/
def Obligations.EncryptIsItsRounds : Prop :=
  ∀ s : State, ∃ t, exec .encrypt s = .next t ∧
    Claim.execAll (.addroundkey 0 ::
      ([1, 2, 3, 4, 5, 6, 7, 8, 9].flatMap fun r => [.subbytes, .shiftrows, .mixcolumns, .addroundkey r]) ++
      [.subbytes, .shiftrows, .addroundkey 10]) s = .next t

/-- R161: DECRYPT is ADDROUNDKEY 10, nine rounds of INVSHIFTROWS, INVSUBBYTES, ADDROUNDKEY, INVMIXCOLUMNS in
decreasing order, and a last round without INVMIXCOLUMNS, done as one command. -/
def Obligations.DecryptIsItsRounds : Prop :=
  ∀ s : State, ∃ t, exec .decrypt s = .next t ∧
    Claim.execAll (.addroundkey 10 ::
      ([9, 8, 7, 6, 5, 4, 3, 2, 1].flatMap fun r => [.invshiftrows, .invsubbytes, .addroundkey r, .invmixcolumns]) ++
      [.invshiftrows, .invsubbytes, .addroundkey 0]) s = .next t

/-- InvCipher and Cipher undo each other, and so do DECRYPT and ENCRYPT on the machine, whatever KV is
(44_block_cipher.md R162). R162 speaks of W = expand(K) and the spec marks its laws as derived; the first clause is for
every schedule W, as the derivation R162 gives, step by step, uses nothing of how W was made. -/
def Obligations.DecryptAndEncryptAreInverse : Prop :=
  (∀ (S : Block) (W : Schedule), invCipher (cipher S W) W = S ∧ cipher (invCipher S W) W = S) ∧
  ∀ s : State,
    (∃ t, exec .encrypt s = .next t ∧ exec .decrypt t = .next { t with st := s.st }) ∧
    (∃ t, exec .decrypt s = .next t ∧ exec .encrypt t = .next { t with st := s.st })

/- ## Control and errors -/

/-- NOP changes nothing, and its completion step only frees the engine (45_control.md, R170). -/
def Obligations.NopChangesNothing : Prop :=
  ∀ s : State, exec .nop s = .next s ∧
    (Claim.Completes s .nop → step s = .next { s with pend := none, busy := false })

/-- ZEROIZE clears KEY, W, KV, ST and RESULT and nothing else; every register but STATUS then reads as after reset
(45_control.md, R171). -/
def Obligations.ZeroizeClearsData : Prop :=
  ∀ s : State, ∃ t, exec .zeroize s = .next t ∧
    t = { s with key := t.key, st := t.st, w := t.w, kv := false, result := 0 } ∧
    (∀ i : Fin 16, t.key[i] = 0 ∧ t.st[i] = 0) ∧ (∀ i : Fin 44, t.w[i] = 0) ∧
    (s.busy = false → ∀ (size : Size) (off : Offset), off ≠ 0x004 →
      portRead size off t = portRead size off State.reset)

/-- Every command in the ranges of R84 completes in every state, and changes neither the error flags nor BUSY, PEND
or anything of the host's (60_exceptions.md, R181). -/
def Obligations.LegalCommandsComplete : Prop :=
  ∀ (i : Instr) (s : State), i.wellFormed = true →
    ∃ t, exec i s = .next t ∧
      t = { s with key := t.key, st := t.st, w := t.w, kv := t.kv, result := t.result }

/-- RCON and ADDROUNDKEY with an operand out of the ranges of R84, which the checks at issue refuse, mean the error
BAD_OPERAND and nothing else. That exec gives them this meaning is the model's choice (assumption log 6). -/
def Obligations.OutOfRangeOperandsRaiseBadOperand : Prop :=
  (∀ (s : State) (i : Byte), i = 0 ∨ 10 < i.toNat → exec (.rcon i) s = .next (Claim.erred 2 s)) ∧
  (∀ (s : State) (r : Byte), 10 < r.toNat → exec (.addroundkey r) s = .next (Claim.erred 2 s))

/-- The block goes on after an error; an error changes no data, BUSY or PEND; and a CMD write and a legal
command do the same whatever ERR and ERRCODE hold (60_exceptions.md R183, whose last sentence the spec marks as
derived). -/
def Obligations.ErrorsDoNotDisturb : Prop :=
  (∀ (s : State) (e : CmdError), (s.raise e).data = s.data ∧ (s.raise e).busy = s.busy ∧ (s.raise e).pend = s.pend) ∧
  (∀ (s : State) (e : CmdError), s.Inv → ∃ t, step (s.raise e) = .next t) ∧
  (∀ (s : State) (e : Bool) (c : BitVec 4) (v : Word),
    (State.writeCmd v { s with err := e, errcode := c }).data = (State.writeCmd v s).data ∧
    (State.writeCmd v { s with err := e, errcode := c }).busy = (State.writeCmd v s).busy ∧
    (State.writeCmd v { s with err := e, errcode := c }).pend = (State.writeCmd v s).pend) ∧
  (∀ (s : State) (e : Bool) (c : BitVec 4) (i : Instr), i.wellFormed = true →
    ∃ t, exec i s = .next t ∧ exec i { s with err := e, errcode := c } = .next { t with err := e, errcode := c })

/-- R29: raise sets ERR and keeps the first code; in any step, ERR and ERRCODE are cleared, both of them, only by a
STATUS write with bit 2 set or by reset, each of which does so; ERRCODE keeps its value while ERR stays set, and a
completion changes neither. -/
def Obligations.FirstErrorIsSticky : Prop :=
  (∀ (s : State) (e : CmdError), s.raise e = Claim.erred e.code s) ∧
  (CmdError.illegalCmd.code = 1 ∧ CmdError.badOperand.code = 2 ∧ CmdError.busyWrite.code = 3) ∧
  (∀ s t : State, step s = .next t →
    (s.err = true → t.err = true → t.errcode = s.errcode) ∧
    (s.err = true → t.err = false → t.errcode = 0 ∧
      ((∃ v rest, s.HostMoves (.write .word 0x004 v) rest ∧ v.getLsbD 2 = true) ∨ ∃ rest, s.HostMoves .reset rest)) ∧
    (((∃ v rest, s.HostMoves (.write .word 0x004 v) rest ∧ v.getLsbD 2 = true) ∨ ∃ rest, s.HostMoves .reset rest) →
      t.err = false ∧ t.errcode = 0) ∧
    (s.engineMoves = true → t.err = s.err ∧ t.errcode = s.errcode))

/-- R180: an error is raised only by a CMD, KEY or STATE write, with the code of its cause, and that access changes no
data, BUSY or PEND. -/
def Obligations.ErrorsComeFromPortWrites : Prop :=
  ∀ s t : State, step s = .next t → s.err = false → t.err = true →
    t.data = s.data ∧ t.busy = s.busy ∧ t.pend = s.pend ∧
    ∃ off v rest, s.HostMoves (.write .word off v) rest ∧
      ((s.busy = true ∧ t.errcode = 3 ∧ (off = 0x000 ∨ 0x010 ≤ off.toNat ∧ off.toNat < 0x030)) ∨
       (s.busy = false ∧ t.errcode = 1 ∧ off = 0x000 ∧ Claim.Illegal v) ∨
       (s.busy = false ∧ t.errcode = 2 ∧ off = 0x000 ∧ ¬Claim.Illegal v ∧ Claim.OutOfRange v))

/- ## The register port -/

/-- R30: the layout of STATUS, its reads, exact even while BUSY = 1, its writes, and its value after reset. -/
def Obligations.StatusRegister : Prop :=
  portRead .word 0x004 State.reset = (.okay, 0) ∧
  ∀ s : State,
    (∃ v : Word, s.perform (.read .word 0x004) = Claim.told (.read .word 0x004) .okay (some v) s ∧
      v.getLsbD 0 = s.busy ∧ v.getLsbD 1 = s.kv ∧ v.getLsbD 2 = s.err ∧
      (∀ i, 3 ≤ i → i ≤ 7 → v.getLsbD i = false) ∧
      (∀ i, 8 ≤ i → i ≤ 11 → v.getLsbD i = s.errcode.getLsbD (i - 8)) ∧
      (∀ i, 12 ≤ i → v.getLsbD i = false)) ∧
    (∀ v : Word, s.perform (.write .word 0x004 v) =
      Claim.told (.write .word 0x004 v) .okay none
        (if v.getLsbD 2 then { s with err := false, errcode := 0 } else s))

/-- R53, R54, R55: an access that is not 32 bits wide and aligned, one to an unmapped offset, and a write to RESULT or
an RK register get the response ERROR, read 0, and change nothing. -/
def Obligations.RejectedAccesses : Prop :=
  ∀ (s : State) (size : Size) (off : Offset) (v : Word),
    (size ≠ .word ∨ off.toNat % 4 ≠ 0 ∨ off = 0x00C ∨ (0x030 ≤ off.toNat ∧ off.toNat ≤ 0x0FF) ∨ 0x1B0 ≤ off.toNat →
      s.perform (.read size off) = Claim.told (.read size off) .error (some 0) s ∧
      s.perform (.write size off v) = Claim.told (.write size off v) .error none s) ∧
    (off = 0x008 ∨ (0x100 ≤ off.toNat ∧ off.toNat ≤ 0x1AC) →
      s.perform (.write size off v) = Claim.told (.write size off v) .error none s)

/-- R56: a read of CMD or of a KEY register is OKAY, gives 0, and changes nothing. -/
def Obligations.WriteOnlyRegistersReadZero : Prop :=
  ∀ (s : State) (off : Offset), off = 0x000 ∨ (∃ j : Fin 4, off = Claim.off 0x010 j) →
    s.perform (.read .word off) = Claim.told (.read .word off) .okay (some 0) s

/-- R57, R82, R83, R84: a CMD write is OKAY; it raises BUSY_WRITE while BUSY = 1, else ILLEGAL_CMD, else BAD_OPERAND,
and where no check fails its opcode and operand bytes go to PEND and BUSY is set. Nothing else changes but the
model's own two counters. -/
def Obligations.CmdWrite : Prop :=
  ∀ (s : State) (v : Word), ∃ t : State,
    s.perform (.write .word 0x000 v) = Claim.told (.write .word 0x000 v) .okay none t ∧
    (s.busy = true → t = Claim.erred 3 s) ∧
    (s.busy = false → Claim.Illegal v → t = Claim.erred 1 s) ∧
    (s.busy = false → ¬Claim.Illegal v → Claim.OutOfRange v → t = Claim.erred 2 s) ∧
    (s.busy = false → ¬Claim.Illegal v → ¬Claim.OutOfRange v →
      t = { s with
        busy := true
        pend := some { op := BitVec.ofNat 8 (Claim.op v), a := BitVec.ofNat 8 (Claim.a v), b := BitVec.ofNat 8 (Claim.b v) }
        accepts := t.accepts
        waited := t.waited })

/-- R58: a KEYj write is OKAY; while BUSY = 1 it raises BUSY_WRITE and does nothing else; else it writes the four bytes
of KEY, byte 0 from bits 31:24, and clears KV. -/
def Obligations.KeyWrite : Prop :=
  ∀ (s : State) (j : Fin 4) (v : Word), ∃ t : State,
    s.perform (.write .word (Claim.off 0x010 j) v) = Claim.told (.write .word (Claim.off 0x010 j) v) .okay none t ∧
    (s.busy = true → t = Claim.erred 3 s) ∧
    (s.busy = false → t = { s with key := t.key, kv := false } ∧
      ∀ c k : Fin 4, t.key[4 * c.val + k.val] = if c = j then Claim.byte v k else s.key[4 * c.val + k.val])

/-- R59: a STATEj write is OKAY; while BUSY = 1 it raises BUSY_WRITE and does nothing else; else it writes the four
bytes of ST, byte 0 from bits 31:24. -/
def Obligations.StateWrite : Prop :=
  ∀ (s : State) (j : Fin 4) (v : Word), ∃ t : State,
    s.perform (.write .word (Claim.off 0x020 j) v) = Claim.told (.write .word (Claim.off 0x020 j) v) .okay none t ∧
    (s.busy = true → t = Claim.erred 3 s) ∧
    (s.busy = false → t = { s with st := t.st } ∧
      ∀ c k : Fin 4, t.st[4 * c.val + k.val] = if c = j then Claim.byte v k else s.st[4 * c.val + k.val])

/-- The reads of STATE, RESULT and RK are OKAY. While BUSY = 0 they give the register, RK only while KV = 1; while
BUSY = 1 each takes a fresh draw, a free value in the model's own form (assumption log 4). None changes anything else
(20_memory.md R60 to R63). -/
def Obligations.DataReads : Prop :=
  ∀ (s : State) (off : Offset) (v : Word),
    ((∃ j : Fin 4, off = Claim.off 0x020 j ∧ ∀ k : Fin 4, Claim.byte v k = s.st[4 * j.val + k.val]) ∨
     (off = 0x008 ∧ v = s.result.setWidth 32) ∨
     (∃ i : Fin 44, off = Claim.off 0x100 i ∧ v = if s.kv then s.w[i] else 0)) →
    (s.busy = false → s.perform (.read .word off) = Claim.told (.read .word off) .okay (some v) s) ∧
    (s.busy = true → s.perform (.read .word off) =
      Claim.told (.read .word off) .okay (some (Config.draw s.draws s.data)) { s with draws := s.draws + 1 })

/-- No read and no poll changes any state of the block: only the host is told, and a draw is used up at most
(20_memory.md, R64). -/
def Obligations.ReadsChangeNothing : Prop :=
  ∀ (s : State) (op : HostOp), (∃ size off, op = .read size off) ∨ op = .poll →
    ∃ (n : Nat) (x : Transaction), s.perform op = { s with draws := n, trace := x :: s.trace } ∧
      x.op = op ∧ s.draws ≤ n ∧ n ≤ s.draws + 1

/-- While BUSY = 0 no read of the port depends on KEY, nor on W while KV = 0 (10_state.md R22, 20_memory.md R56 and
R62). -/
def Obligations.IdleReadsHideKey : Prop :=
  ∀ (s : State) (k : Block) (w : Schedule) (size : Size) (off : Offset), s.busy = false →
    portRead size off { s with key := k } = portRead size off s ∧
    (s.kv = false → portRead size off { s with key := k, w := w } = portRead size off s)

/-- Offsets and system addresses agree, whatever BASE is: each offset has an address in the window, and an address
outside the window has no offset (20_memory.md, R50). -/
def Obligations.WindowAtBase : Prop :=
  (∀ off : Offset, Config.offset? (Config.address off) = some off) ∧
  (∀ addr : Nat, (∃ off, Config.offset? addr = some off) ↔ Config.base ≤ addr ∧ addr < Config.base + 4096) ∧
  (∀ (addr : Nat) (off : Offset), Config.offset? addr = some off → Config.address off = addr) ∧
  Config.base % 4096 = 0

/- ## Steps -/

/-- A step in which the engine moves runs the command in PEND, and then PEND is none and BUSY 0 (20_memory.md,
R66). -/
def Obligations.EngineStepRunsPending : Prop :=
  ∀ (s : State) (p : Pending) (i : Instr),
    s.engineMoves = true → s.pend = some p → decode p.word = .ok i → i.wellFormed = true →
    ∃ t, exec i s = .next t ∧ step s = .next { t with pend := none, busy := false }

/-- The very next step of withFetchWord runs the command of an acceptable word, and for a word the checks refuse it is
the CMD write that raises its error; nothing else of the block is changed (the model's own: assumption log 7). -/
def Obligations.FetchWordRunsNext : Prop :=
  ∀ (s : State) (nbits w : Nat),
    (∀ i, commandCheck (tableWord nbits w) = .ok i → ∃ t,
      exec i (s.withFetchWord nbits w) = .next t ∧
      step (s.withFetchWord nbits w) = .next { t with pend := none, busy := false }) ∧
    (∀ e, commandCheck (tableWord nbits w) = .error e → ∃ t,
      step (s.withFetchWord nbits w) = .next t ∧ t.data = s.data ∧ t.err = true ∧ t.host = [] ∧ t.busy = false) ∧
    (s.withFetchWord nbits w).data = s.data ∧ (s.withFetchWord nbits w).err = s.err ∧
    (s.withFetchWord nbits w).errcode = s.errcode

/-- A step in which the engine does not move performs the host's next access (20_memory.md R67), and with none waiting
and BUSY = 0 changes nothing (60_exceptions.md R192). The host's list, from which the access is taken and in which a
poll stays while BUSY = 1, and the counters waited and arrivals, which go up by 1, are the model's choice (assumption
logs 2, 3 and 5). -/
def Obligations.HostStepPerformsAccess : Prop :=
  (∀ (s : State) (op : HostOp) (rest : List HostOp), s.HostMoves op rest →
    step s = .next (State.perform op
      { s with
        host := if op = .poll ∧ s.busy = true then s.host else rest
        waited := s.waited + 1
        arrivals := s.arrivals + 1 })) ∧
  (∀ s : State, s.busy = false → s.host = [] → step s = .next s)

/-- The access that arrives next is one of the host's, it passes only writes, and with HOST_ORDERED it is the first
(20_memory.md, R67 and R68; the model's choice of what may pass what: assumption log 5). -/
def Obligations.ArrivalOrder : Prop :=
  ∀ s : State,
    (s.host = [] ↔ s.nextAccess = none) ∧
    ∀ op rest, s.nextAccess = some (op, rest) →
      ∃ before after, s.host = before ++ op :: after ∧ rest = before ++ after ∧
        (∀ x ∈ before, x.isWrite = true) ∧ (Config.hostOrdered = true → before = [])

/-- While BUSY = 1, no access of the host but reset changes the data registers, BUSY, PEND or how many commands have
been accepted, so that none can change what the completion computes (20_memory.md, R66). -/
def Obligations.BusyProtectsCommand : Prop :=
  ∀ (s : State) (op : HostOp), s.busy = true → op ≠ .reset →
    (s.perform op).data = s.data ∧ (s.perform op).busy = true ∧ (s.perform op).pend = s.pend ∧
    (s.perform op).accepts = s.accepts ∧ (s.perform op).host = s.host

/-- KEY changes in a step only by a KEYj write accepted while BUSY = 0, by the completion of ZEROIZE, or by reset
(10_state.md, R22). -/
def Obligations.KeyChangesInThreeWays : Prop :=
  ∀ s t : State, step s = .next t → t.key ≠ s.key →
    (s.busy = false ∧ ∃ (j : Fin 4) (v : Word) (rest : List HostOp),
      s.HostMoves (.write .word (Claim.off 0x010 j) v) rest) ∨
    Claim.Completes s .zeroize ∨ ∃ rest, s.HostMoves .reset rest

/-- W changes in a step only by the completion of EXPAND, of ADDROUNDKEY, ENCRYPT or DECRYPT with KV = 0, or of
ZEROIZE, or by reset; so no host write reaches it (10_state.md, R24). -/
def Obligations.ScheduleChangesInFourWays : Prop :=
  ∀ s t : State, step s = .next t → t.w ≠ s.w →
    Claim.Completes s .expand ∨
    (s.kv = false ∧ (Claim.Completes s .encrypt ∨ Claim.Completes s .decrypt ∨
      ∃ r, Claim.Completes s (.addroundkey r))) ∨
    Claim.Completes s .zeroize ∨ ∃ rest, s.HostMoves .reset rest

/-- R25: RESULT changes in a step only by the completion of SBOX, INVSBOX, RCON or GFMUL, and by ZEROIZE and reset,
which clear it. -/
def Obligations.ResultChangesOnlyByItsCommands : Prop :=
  ∀ s t : State, step s = .next t →
    (t.result ≠ s.result →
      (∃ x, Claim.Completes s (.sbox x)) ∨ (∃ y, Claim.Completes s (.invsbox y)) ∨
      (∃ i, Claim.Completes s (.rcon i)) ∨ (∃ a b, Claim.Completes s (.gfmul a b)) ∨
      Claim.Completes s .zeroize ∨ ∃ rest, s.HostMoves .reset rest) ∧
    ((Claim.Completes s .zeroize ∨ ∃ rest, s.HostMoves .reset rest) → t.result = 0) ∧
    (∀ x, Claim.Completes s (.sbox x) → t.result = sboxRom x) ∧
    (∀ y, Claim.Completes s (.invsbox y) → t.result = invSboxRom y) ∧
    (∀ i, Claim.Completes s (.rcon i) → t.result = rconRom (Fin.ofNat 11 i.toNat)) ∧
    (∀ a b, Claim.Completes s (.gfmul a b) → t.result = gfmul a b)

/-- What sets KV and what clears it in a step, nothing else changing it, and the invariant KV = 1 => W = expand(KEY)
(10_state.md R26, whose invariant the spec marks as derived from R22, R131 and R132). -/
def Obligations.KeyValidFlag : Prop :=
  ∀ s t : State, step s = .next t →
    ((Claim.Completes s .expand ∨ Claim.Completes s .encrypt ∨ Claim.Completes s .decrypt ∨
      ∃ r, Claim.Completes s (.addroundkey r)) → t.kv = true) ∧
    (((∃ (j : Fin 4) (v : Word) (rest : List HostOp), s.busy = false ∧
        s.HostMoves (.write .word (Claim.off 0x010 j) v) rest) ∨
      Claim.Completes s .zeroize ∨ ∃ rest, s.HostMoves .reset rest) → t.kv = false) ∧
    (s.kv = false → t.kv = true →
      Claim.Completes s .expand ∨ Claim.Completes s .encrypt ∨ Claim.Completes s .decrypt ∨
      ∃ r, Claim.Completes s (.addroundkey r)) ∧
    (s.kv = true → t.kv = false →
      (∃ (j : Fin 4) (v : Word) (rest : List HostOp), s.busy = false ∧
        s.HostMoves (.write .word (Claim.off 0x010 j) v) rest) ∨
      Claim.Completes s .zeroize ∨ ∃ rest, s.HostMoves .reset rest) ∧
    (s.ScheduleValid → t.ScheduleValid)

/-- R27: BUSY is set in a step by a CMD write whose command is accepted, and by nothing else, and cleared by the
completion of the command and by reset, and by nothing else; while BUSY = 1 a command is in PEND. -/
def Obligations.BusyFlag : Prop :=
  ∀ s t : State, step s = .next t →
    (s.busy = false → t.busy = true →
      ∃ v rest i, s.HostMoves (.write .word 0x000 v) rest ∧ commandCheck v = .ok i ∧ t.pend = some (Pending.ofWord v)) ∧
    (s.busy = false → ∀ v rest i, s.HostMoves (.write .word 0x000 v) rest → commandCheck v = .ok i →
      t.busy = true ∧ t.pend = some (Pending.ofWord v)) ∧
    (s.busy = true → t.busy = false → s.engineMoves = true ∨ ∃ rest, s.HostMoves .reset rest) ∧
    (s.engineMoves = true ∨ (∃ rest, s.HostMoves .reset rest) → t.busy = false ∧ t.pend = none) ∧
    (s.BusyIffPending → t.BusyIffPending)

/-- Every run starts in a state that keeps the invariant, whatever the host's program (R213). -/
def Obligations.InvAtReset : Prop :=
  State.reset.Inv ∧ ∀ program : List HostOp, (State.start program).Inv

/-- The invariant holds after every step from a state in which it holds: KV = 1 => W = expand(KEY) (R26); BUSY = 1 if
and only if a command is pending (R28); the pending command passed the checks (R57); ERRCODE is 0 exactly while
ERR = 0, and no reserved code (R180). -/
def Obligations.StepKeepsInv : Prop :=
  ∀ s t : State, s.Inv → step s = .next t → t.Inv

/-- From every state that keeps the invariant the step answers a next state: no fault and no refusal is reachable
(60_exceptions.md, R181 and R183). -/
def Obligations.InvNeverStops : Prop :=
  ∀ s : State, s.Inv → ∃ t, step s = .next t

/-- Every accepted command completes, unless a reset comes first, and with the data that its completion gives in the
state it was accepted in, whatever accesses fall between and however long it takes (the fairness of 20_memory.md R66).
How many steps it takes rests on the model's count of accesses in place of LAT, and on its completion at once when the
host has nothing to do, which are the model's choice (assumption log 3). -/
def Obligations.AcceptedCommandCompletes : Prop :=
  ∀ (s : State) (i : Instr), s.busy = true → s.pendingCommand = .ok i → HostOp.reset ∉ s.host →
    ∃ (k : Nat) (t u : State),
      Sys2Proof.core.run k s = .next t ∧ exec i s = .next u ∧
      t.busy = false ∧ t.pend = none ∧ t.data = u.data
end

