-- ==== Sys2Proof/Laws/State.lean ====
section
/-! SUPPORT. What each update of the state does to each field: one lemma per field per update, all by rfl, so that
no later proof unfolds an update. -/

namespace Sys2Proof.Machine

variable (s : State)

@[simp] theorem State.raise_key (e : CmdError) : (s.raise e).key = s.key := rfl
@[simp] theorem State.raise_st (e : CmdError) : (s.raise e).st = s.st := rfl
@[simp] theorem State.raise_w (e : CmdError) : (s.raise e).w = s.w := rfl
@[simp] theorem State.raise_kv (e : CmdError) : (s.raise e).kv = s.kv := rfl
@[simp] theorem State.raise_result (e : CmdError) : (s.raise e).result = s.result := rfl
@[simp] theorem State.raise_busy (e : CmdError) : (s.raise e).busy = s.busy := rfl
@[simp] theorem State.raise_pend (e : CmdError) : (s.raise e).pend = s.pend := rfl
@[simp] theorem State.raise_err (e : CmdError) : (s.raise e).err = true := rfl
@[simp] theorem State.raise_errcode (e : CmdError) : (s.raise e).errcode = if s.err then s.errcode else e.code := rfl
@[simp] theorem State.raise_host (e : CmdError) : (s.raise e).host = s.host := rfl
@[simp] theorem State.raise_trace (e : CmdError) : (s.raise e).trace = s.trace := rfl
@[simp] theorem State.raise_draws (e : CmdError) : (s.raise e).draws = s.draws := rfl
@[simp] theorem State.raise_accepts (e : CmdError) : (s.raise e).accepts = s.accepts := rfl
@[simp] theorem State.raise_waited (e : CmdError) : (s.raise e).waited = s.waited := rfl
@[simp] theorem State.raise_arrivals (e : CmdError) : (s.raise e).arrivals = s.arrivals := rfl
@[simp] theorem State.raise_data (e : CmdError) : (s.raise e).data = s.data := rfl

@[simp] theorem State.clearErr_key : (s.clearErr).key = s.key := rfl
@[simp] theorem State.clearErr_st : (s.clearErr).st = s.st := rfl
@[simp] theorem State.clearErr_w : (s.clearErr).w = s.w := rfl
@[simp] theorem State.clearErr_kv : (s.clearErr).kv = s.kv := rfl
@[simp] theorem State.clearErr_result : (s.clearErr).result = s.result := rfl
@[simp] theorem State.clearErr_busy : (s.clearErr).busy = s.busy := rfl
@[simp] theorem State.clearErr_pend : (s.clearErr).pend = s.pend := rfl
@[simp] theorem State.clearErr_err : (s.clearErr).err = false := rfl
@[simp] theorem State.clearErr_errcode : (s.clearErr).errcode = 0 := rfl
@[simp] theorem State.clearErr_host : (s.clearErr).host = s.host := rfl
@[simp] theorem State.clearErr_trace : (s.clearErr).trace = s.trace := rfl
@[simp] theorem State.clearErr_draws : (s.clearErr).draws = s.draws := rfl
@[simp] theorem State.clearErr_accepts : (s.clearErr).accepts = s.accepts := rfl
@[simp] theorem State.clearErr_waited : (s.clearErr).waited = s.waited := rfl
@[simp] theorem State.clearErr_arrivals : (s.clearErr).arrivals = s.arrivals := rfl
@[simp] theorem State.clearErr_data : (s.clearErr).data = s.data := rfl

@[simp] theorem State.accept_key (p : Pending) : (s.accept p).key = s.key := rfl
@[simp] theorem State.accept_st (p : Pending) : (s.accept p).st = s.st := rfl
@[simp] theorem State.accept_w (p : Pending) : (s.accept p).w = s.w := rfl
@[simp] theorem State.accept_kv (p : Pending) : (s.accept p).kv = s.kv := rfl
@[simp] theorem State.accept_result (p : Pending) : (s.accept p).result = s.result := rfl
@[simp] theorem State.accept_busy (p : Pending) : (s.accept p).busy = true := rfl
@[simp] theorem State.accept_pend (p : Pending) : (s.accept p).pend = some p := rfl
@[simp] theorem State.accept_err (p : Pending) : (s.accept p).err = s.err := rfl
@[simp] theorem State.accept_errcode (p : Pending) : (s.accept p).errcode = s.errcode := rfl
@[simp] theorem State.accept_host (p : Pending) : (s.accept p).host = s.host := rfl
@[simp] theorem State.accept_trace (p : Pending) : (s.accept p).trace = s.trace := rfl
@[simp] theorem State.accept_draws (p : Pending) : (s.accept p).draws = s.draws := rfl
@[simp] theorem State.accept_accepts (p : Pending) : (s.accept p).accepts = s.accepts + 1 := rfl
@[simp] theorem State.accept_waited (p : Pending) : (s.accept p).waited = 0 := rfl
@[simp] theorem State.accept_arrivals (p : Pending) : (s.accept p).arrivals = s.arrivals := rfl
@[simp] theorem State.accept_data (p : Pending) : (s.accept p).data = s.data := rfl

@[simp] theorem State.retire_key : (s.retire).key = s.key := rfl
@[simp] theorem State.retire_st : (s.retire).st = s.st := rfl
@[simp] theorem State.retire_w : (s.retire).w = s.w := rfl
@[simp] theorem State.retire_kv : (s.retire).kv = s.kv := rfl
@[simp] theorem State.retire_result : (s.retire).result = s.result := rfl
@[simp] theorem State.retire_busy : (s.retire).busy = false := rfl
@[simp] theorem State.retire_pend : (s.retire).pend = none := rfl
@[simp] theorem State.retire_err : (s.retire).err = s.err := rfl
@[simp] theorem State.retire_errcode : (s.retire).errcode = s.errcode := rfl
@[simp] theorem State.retire_host : (s.retire).host = s.host := rfl
@[simp] theorem State.retire_trace : (s.retire).trace = s.trace := rfl
@[simp] theorem State.retire_draws : (s.retire).draws = s.draws := rfl
@[simp] theorem State.retire_accepts : (s.retire).accepts = s.accepts := rfl
@[simp] theorem State.retire_waited : (s.retire).waited = s.waited := rfl
@[simp] theorem State.retire_arrivals : (s.retire).arrivals = s.arrivals := rfl
@[simp] theorem State.retire_data : (s.retire).data = s.data := rfl

@[simp] theorem State.resetBlock_key : (s.resetBlock).key = Vector.replicate 16 0 := rfl
@[simp] theorem State.resetBlock_st : (s.resetBlock).st = Vector.replicate 16 0 := rfl
@[simp] theorem State.resetBlock_w : (s.resetBlock).w = Vector.replicate 44 0 := rfl
@[simp] theorem State.resetBlock_kv : (s.resetBlock).kv = false := rfl
@[simp] theorem State.resetBlock_result : (s.resetBlock).result = 0 := rfl
@[simp] theorem State.resetBlock_busy : (s.resetBlock).busy = false := rfl
@[simp] theorem State.resetBlock_pend : (s.resetBlock).pend = none := rfl
@[simp] theorem State.resetBlock_err : (s.resetBlock).err = false := rfl
@[simp] theorem State.resetBlock_errcode : (s.resetBlock).errcode = 0 := rfl
@[simp] theorem State.resetBlock_host : (s.resetBlock).host = s.host := rfl
@[simp] theorem State.resetBlock_trace : (s.resetBlock).trace = s.trace := rfl
@[simp] theorem State.resetBlock_draws : (s.resetBlock).draws = s.draws := rfl
@[simp] theorem State.resetBlock_accepts : (s.resetBlock).accepts = s.accepts := rfl
@[simp] theorem State.resetBlock_waited : (s.resetBlock).waited = s.waited := rfl
@[simp] theorem State.resetBlock_arrivals : (s.resetBlock).arrivals = s.arrivals := rfl

@[simp] theorem State.setResult_key (v : Byte) : (s.setResult v).key = s.key := rfl
@[simp] theorem State.setResult_st (v : Byte) : (s.setResult v).st = s.st := rfl
@[simp] theorem State.setResult_w (v : Byte) : (s.setResult v).w = s.w := rfl
@[simp] theorem State.setResult_kv (v : Byte) : (s.setResult v).kv = s.kv := rfl
@[simp] theorem State.setResult_result (v : Byte) : (s.setResult v).result = v := rfl
@[simp] theorem State.setResult_busy (v : Byte) : (s.setResult v).busy = s.busy := rfl
@[simp] theorem State.setResult_pend (v : Byte) : (s.setResult v).pend = s.pend := rfl
@[simp] theorem State.setResult_err (v : Byte) : (s.setResult v).err = s.err := rfl
@[simp] theorem State.setResult_errcode (v : Byte) : (s.setResult v).errcode = s.errcode := rfl
@[simp] theorem State.setResult_host (v : Byte) : (s.setResult v).host = s.host := rfl
@[simp] theorem State.setResult_trace (v : Byte) : (s.setResult v).trace = s.trace := rfl
@[simp] theorem State.setResult_draws (v : Byte) : (s.setResult v).draws = s.draws := rfl
@[simp] theorem State.setResult_accepts (v : Byte) : (s.setResult v).accepts = s.accepts := rfl
@[simp] theorem State.setResult_waited (v : Byte) : (s.setResult v).waited = s.waited := rfl
@[simp] theorem State.setResult_arrivals (v : Byte) : (s.setResult v).arrivals = s.arrivals := rfl

@[simp] theorem State.setSt_key (b : Block) : (s.setSt b).key = s.key := rfl
@[simp] theorem State.setSt_st (b : Block) : (s.setSt b).st = b := rfl
@[simp] theorem State.setSt_w (b : Block) : (s.setSt b).w = s.w := rfl
@[simp] theorem State.setSt_kv (b : Block) : (s.setSt b).kv = s.kv := rfl
@[simp] theorem State.setSt_result (b : Block) : (s.setSt b).result = s.result := rfl
@[simp] theorem State.setSt_busy (b : Block) : (s.setSt b).busy = s.busy := rfl
@[simp] theorem State.setSt_pend (b : Block) : (s.setSt b).pend = s.pend := rfl
@[simp] theorem State.setSt_err (b : Block) : (s.setSt b).err = s.err := rfl
@[simp] theorem State.setSt_errcode (b : Block) : (s.setSt b).errcode = s.errcode := rfl
@[simp] theorem State.setSt_host (b : Block) : (s.setSt b).host = s.host := rfl
@[simp] theorem State.setSt_trace (b : Block) : (s.setSt b).trace = s.trace := rfl
@[simp] theorem State.setSt_draws (b : Block) : (s.setSt b).draws = s.draws := rfl
@[simp] theorem State.setSt_accepts (b : Block) : (s.setSt b).accepts = s.accepts := rfl
@[simp] theorem State.setSt_waited (b : Block) : (s.setSt b).waited = s.waited := rfl
@[simp] theorem State.setSt_arrivals (b : Block) : (s.setSt b).arrivals = s.arrivals := rfl

@[simp] theorem State.setKey_key (k : Block) : (s.setKey k).key = k := rfl
@[simp] theorem State.setKey_st (k : Block) : (s.setKey k).st = s.st := rfl
@[simp] theorem State.setKey_w (k : Block) : (s.setKey k).w = s.w := rfl
@[simp] theorem State.setKey_kv (k : Block) : (s.setKey k).kv = false := rfl
@[simp] theorem State.setKey_result (k : Block) : (s.setKey k).result = s.result := rfl
@[simp] theorem State.setKey_busy (k : Block) : (s.setKey k).busy = s.busy := rfl
@[simp] theorem State.setKey_pend (k : Block) : (s.setKey k).pend = s.pend := rfl
@[simp] theorem State.setKey_err (k : Block) : (s.setKey k).err = s.err := rfl
@[simp] theorem State.setKey_errcode (k : Block) : (s.setKey k).errcode = s.errcode := rfl
@[simp] theorem State.setKey_host (k : Block) : (s.setKey k).host = s.host := rfl
@[simp] theorem State.setKey_trace (k : Block) : (s.setKey k).trace = s.trace := rfl
@[simp] theorem State.setKey_draws (k : Block) : (s.setKey k).draws = s.draws := rfl
@[simp] theorem State.setKey_accepts (k : Block) : (s.setKey k).accepts = s.accepts := rfl
@[simp] theorem State.setKey_waited (k : Block) : (s.setKey k).waited = s.waited := rfl
@[simp] theorem State.setKey_arrivals (k : Block) : (s.setKey k).arrivals = s.arrivals := rfl

@[simp] theorem State.setSchedule_key (W : Schedule) : (s.setSchedule W).key = s.key := rfl
@[simp] theorem State.setSchedule_st (W : Schedule) : (s.setSchedule W).st = s.st := rfl
@[simp] theorem State.setSchedule_w (W : Schedule) : (s.setSchedule W).w = W := rfl
@[simp] theorem State.setSchedule_kv (W : Schedule) : (s.setSchedule W).kv = true := rfl
@[simp] theorem State.setSchedule_result (W : Schedule) : (s.setSchedule W).result = s.result := rfl
@[simp] theorem State.setSchedule_busy (W : Schedule) : (s.setSchedule W).busy = s.busy := rfl
@[simp] theorem State.setSchedule_pend (W : Schedule) : (s.setSchedule W).pend = s.pend := rfl
@[simp] theorem State.setSchedule_err (W : Schedule) : (s.setSchedule W).err = s.err := rfl
@[simp] theorem State.setSchedule_errcode (W : Schedule) : (s.setSchedule W).errcode = s.errcode := rfl
@[simp] theorem State.setSchedule_host (W : Schedule) : (s.setSchedule W).host = s.host := rfl
@[simp] theorem State.setSchedule_trace (W : Schedule) : (s.setSchedule W).trace = s.trace := rfl
@[simp] theorem State.setSchedule_draws (W : Schedule) : (s.setSchedule W).draws = s.draws := rfl
@[simp] theorem State.setSchedule_accepts (W : Schedule) : (s.setSchedule W).accepts = s.accepts := rfl
@[simp] theorem State.setSchedule_waited (W : Schedule) : (s.setSchedule W).waited = s.waited := rfl
@[simp] theorem State.setSchedule_arrivals (W : Schedule) : (s.setSchedule W).arrivals = s.arrivals := rfl

@[simp] theorem State.zeroizeData_key : (s.zeroizeData).key = Vector.replicate 16 0 := rfl
@[simp] theorem State.zeroizeData_st : (s.zeroizeData).st = Vector.replicate 16 0 := rfl
@[simp] theorem State.zeroizeData_w : (s.zeroizeData).w = Vector.replicate 44 0 := rfl
@[simp] theorem State.zeroizeData_kv : (s.zeroizeData).kv = false := rfl
@[simp] theorem State.zeroizeData_result : (s.zeroizeData).result = 0 := rfl
@[simp] theorem State.zeroizeData_busy : (s.zeroizeData).busy = s.busy := rfl
@[simp] theorem State.zeroizeData_pend : (s.zeroizeData).pend = s.pend := rfl
@[simp] theorem State.zeroizeData_err : (s.zeroizeData).err = s.err := rfl
@[simp] theorem State.zeroizeData_errcode : (s.zeroizeData).errcode = s.errcode := rfl
@[simp] theorem State.zeroizeData_host : (s.zeroizeData).host = s.host := rfl
@[simp] theorem State.zeroizeData_trace : (s.zeroizeData).trace = s.trace := rfl
@[simp] theorem State.zeroizeData_draws : (s.zeroizeData).draws = s.draws := rfl
@[simp] theorem State.zeroizeData_accepts : (s.zeroizeData).accepts = s.accepts := rfl
@[simp] theorem State.zeroizeData_waited : (s.zeroizeData).waited = s.waited := rfl
@[simp] theorem State.zeroizeData_arrivals : (s.zeroizeData).arrivals = s.arrivals := rfl

@[simp] theorem State.countDraw_key : (s.countDraw).key = s.key := rfl
@[simp] theorem State.countDraw_st : (s.countDraw).st = s.st := rfl
@[simp] theorem State.countDraw_w : (s.countDraw).w = s.w := rfl
@[simp] theorem State.countDraw_kv : (s.countDraw).kv = s.kv := rfl
@[simp] theorem State.countDraw_result : (s.countDraw).result = s.result := rfl
@[simp] theorem State.countDraw_busy : (s.countDraw).busy = s.busy := rfl
@[simp] theorem State.countDraw_pend : (s.countDraw).pend = s.pend := rfl
@[simp] theorem State.countDraw_err : (s.countDraw).err = s.err := rfl
@[simp] theorem State.countDraw_errcode : (s.countDraw).errcode = s.errcode := rfl
@[simp] theorem State.countDraw_host : (s.countDraw).host = s.host := rfl
@[simp] theorem State.countDraw_trace : (s.countDraw).trace = s.trace := rfl
@[simp] theorem State.countDraw_draws : (s.countDraw).draws = s.draws + 1 := rfl
@[simp] theorem State.countDraw_accepts : (s.countDraw).accepts = s.accepts := rfl
@[simp] theorem State.countDraw_waited : (s.countDraw).waited = s.waited := rfl
@[simp] theorem State.countDraw_arrivals : (s.countDraw).arrivals = s.arrivals := rfl
@[simp] theorem State.countDraw_data : (s.countDraw).data = s.data := rfl

@[simp] theorem State.record_key (x : Transaction) : (s.record x).key = s.key := rfl
@[simp] theorem State.record_st (x : Transaction) : (s.record x).st = s.st := rfl
@[simp] theorem State.record_w (x : Transaction) : (s.record x).w = s.w := rfl
@[simp] theorem State.record_kv (x : Transaction) : (s.record x).kv = s.kv := rfl
@[simp] theorem State.record_result (x : Transaction) : (s.record x).result = s.result := rfl
@[simp] theorem State.record_busy (x : Transaction) : (s.record x).busy = s.busy := rfl
@[simp] theorem State.record_pend (x : Transaction) : (s.record x).pend = s.pend := rfl
@[simp] theorem State.record_err (x : Transaction) : (s.record x).err = s.err := rfl
@[simp] theorem State.record_errcode (x : Transaction) : (s.record x).errcode = s.errcode := rfl
@[simp] theorem State.record_host (x : Transaction) : (s.record x).host = s.host := rfl
@[simp] theorem State.record_trace (x : Transaction) : (s.record x).trace = x :: s.trace := rfl
@[simp] theorem State.record_draws (x : Transaction) : (s.record x).draws = s.draws := rfl
@[simp] theorem State.record_accepts (x : Transaction) : (s.record x).accepts = s.accepts := rfl
@[simp] theorem State.record_waited (x : Transaction) : (s.record x).waited = s.waited := rfl
@[simp] theorem State.record_arrivals (x : Transaction) : (s.record x).arrivals = s.arrivals := rfl
@[simp] theorem State.record_data (x : Transaction) : (s.record x).data = s.data := rfl

@[simp] theorem State.takeAccess_key (op : HostOp) (rest : List HostOp) : (s.takeAccess op rest).key = s.key := rfl
@[simp] theorem State.takeAccess_st (op : HostOp) (rest : List HostOp) : (s.takeAccess op rest).st = s.st := rfl
@[simp] theorem State.takeAccess_w (op : HostOp) (rest : List HostOp) : (s.takeAccess op rest).w = s.w := rfl
@[simp] theorem State.takeAccess_kv (op : HostOp) (rest : List HostOp) : (s.takeAccess op rest).kv = s.kv := rfl
@[simp] theorem State.takeAccess_result (op : HostOp) (rest : List HostOp) : (s.takeAccess op rest).result = s.result := rfl
@[simp] theorem State.takeAccess_busy (op : HostOp) (rest : List HostOp) : (s.takeAccess op rest).busy = s.busy := rfl
@[simp] theorem State.takeAccess_pend (op : HostOp) (rest : List HostOp) : (s.takeAccess op rest).pend = s.pend := rfl
@[simp] theorem State.takeAccess_err (op : HostOp) (rest : List HostOp) : (s.takeAccess op rest).err = s.err := rfl
@[simp] theorem State.takeAccess_errcode (op : HostOp) (rest : List HostOp) : (s.takeAccess op rest).errcode = s.errcode := rfl
@[simp] theorem State.takeAccess_host (op : HostOp) (rest : List HostOp) : (s.takeAccess op rest).host = if op = .poll ∧ s.busy = true then s.host else rest := rfl
@[simp] theorem State.takeAccess_trace (op : HostOp) (rest : List HostOp) : (s.takeAccess op rest).trace = s.trace := rfl
@[simp] theorem State.takeAccess_draws (op : HostOp) (rest : List HostOp) : (s.takeAccess op rest).draws = s.draws := rfl
@[simp] theorem State.takeAccess_accepts (op : HostOp) (rest : List HostOp) : (s.takeAccess op rest).accepts = s.accepts := rfl
@[simp] theorem State.takeAccess_waited (op : HostOp) (rest : List HostOp) : (s.takeAccess op rest).waited = s.waited + 1 := rfl
@[simp] theorem State.takeAccess_arrivals (op : HostOp) (rest : List HostOp) : (s.takeAccess op rest).arrivals = s.arrivals + 1 := rfl
@[simp] theorem State.takeAccess_data (op : HostOp) (rest : List HostOp) : (s.takeAccess op rest).data = s.data := rfl

@[simp] theorem State.reset_key : State.reset.key = Vector.replicate 16 0 := rfl
@[simp] theorem State.reset_st : State.reset.st = Vector.replicate 16 0 := rfl
@[simp] theorem State.reset_w : State.reset.w = Vector.replicate 44 0 := rfl
@[simp] theorem State.reset_kv : State.reset.kv = false := rfl
@[simp] theorem State.reset_result : State.reset.result = 0 := rfl
@[simp] theorem State.reset_busy : State.reset.busy = false := rfl
@[simp] theorem State.reset_pend : State.reset.pend = none := rfl
@[simp] theorem State.reset_err : State.reset.err = false := rfl
@[simp] theorem State.reset_errcode : State.reset.errcode = 0 := rfl
@[simp] theorem State.reset_host : State.reset.host = [] := rfl
@[simp] theorem State.reset_trace : State.reset.trace = [] := rfl
@[simp] theorem State.reset_draws : State.reset.draws = 0 := rfl
@[simp] theorem State.reset_accepts : State.reset.accepts = 0 := rfl
@[simp] theorem State.reset_waited : State.reset.waited = 0 := rfl
@[simp] theorem State.reset_arrivals : State.reset.arrivals = 0 := rfl

end Sys2Proof.Machine
end

