-- ==== Sys2Proof/Laws/Exec.lean ====
section
/-! SUPPORT. What a command's meaning can do, said once: it never stops, it changes data registers alone, or it raises
BAD_OPERAND. -/

namespace Sys2Proof.Machine

@[simp] theorem ensureSchedule_of_valid {s : State} (h : s.kv = true) : s.ensureSchedule = s := by
  simp [State.ensureSchedule, h]

@[simp] theorem ensureSchedule_of_invalid {s : State} (h : s.kv = false) : s.ensureSchedule = s.expandKey := by
  simp [State.ensureSchedule, h]

/-- The state with other data registers: all that a legal command changes. -/
def State.withData (d : Data) (s : State) : State :=
  { s with key := d.key, st := d.st, w := d.w, kv := d.kv, result := d.result }

@[simp] theorem State.withData_data (d : Data) (s : State) : (s.withData d).data = d := rfl

/-- The data registers after the implicit expansion of R132 and a change of ST by f. -/
def dataWithSchedule (f : Block → Schedule → Block) (d : Data) : Data :=
  if d.kv then { d with st := f d.st d.w }
  else { d with w := expand d.key, kv := true, st := f d.st (expand d.key) }

theorem withSchedule_eq (f : Block → Schedule → Block) (s : State) :
    s.withSchedule f = s.withData (dataWithSchedule f s.data) := by
  cases h : s.kv <;> simp [State.withSchedule, h, dataWithSchedule, State.data, State.withData, State.expandKey,
    State.setSt, State.setSchedule]

/-- What each command does to the data registers (the completion lines of its rule). -/
def dataAfter : Instr → Data → Data
  | .nop, d => d
  | .sbox x, d => { d with result := sboxRom x }
  | .invsbox y, d => { d with result := invSboxRom y }
  | .rcon n, d => { d with result := rconRom (index11 n) }
  | .gfmul a b, d => { d with result := gfmul a b }
  | .expand, d => { d with w := expand d.key, kv := true }
  | .subbytes, d => { d with st := subBytes d.st }
  | .invsubbytes, d => { d with st := invSubBytes d.st }
  | .shiftrows, d => { d with st := shiftRows d.st }
  | .invshiftrows, d => { d with st := invShiftRows d.st }
  | .mixcolumns, d => { d with st := mixColumns d.st }
  | .invmixcolumns, d => { d with st := invMixColumns d.st }
  | .addroundkey r, d => dataWithSchedule (fun S W => addRoundKey S W (index11 r)) d
  | .encrypt, d => dataWithSchedule cipher d
  | .decrypt, d => dataWithSchedule invCipher d
  | .zeroize, _ => State.reset.data

/-- A legal command completes, and its data registers are a function of those before: nothing else matters to it, and
nothing else changes. -/
theorem exec_of_wellFormed {i : Instr} (h : i.wellFormed = true) (s : State) :
    exec i s = .next (s.withData (dataAfter i s.data)) := by
  cases i <;>
    simp [exec, execNop, execSbox, execInvsbox, execRcon, execGfmul, execExpand, execSubbytes, execInvsubbytes,
      execShiftrows, execInvshiftrows, execMixcolumns, execInvmixcolumns, execAddroundkey, execEncrypt, execDecrypt,
      execZeroize, h, withSchedule_eq, dataAfter] <;> rfl

/-- A command out of the ranges of R84 raises BAD_OPERAND and does nothing else. -/
theorem exec_of_outOfRange {i : Instr} (h : i.wellFormed = false) (s : State) :
    exec i s = .next (s.raise .badOperand) := by
  cases i <;> first | exact absurd (show true = false from h) (by decide) | simp [exec, execRcon, execAddroundkey, h]

@[simp] theorem withData_err (d : Data) (s : State) : (s.withData d).err = s.err := rfl
@[simp] theorem withData_errcode (d : Data) (s : State) : (s.withData d).errcode = s.errcode := rfl
@[simp] theorem withData_busy (d : Data) (s : State) : (s.withData d).busy = s.busy := rfl
@[simp] theorem withData_pend (d : Data) (s : State) : (s.withData d).pend = s.pend := rfl
@[simp] theorem withData_key (d : Data) (s : State) : (s.withData d).key = d.key := rfl
@[simp] theorem withData_st (d : Data) (s : State) : (s.withData d).st = d.st := rfl
@[simp] theorem withData_w (d : Data) (s : State) : (s.withData d).w = d.w := rfl
@[simp] theorem withData_kv (d : Data) (s : State) : (s.withData d).kv = d.kv := rfl
@[simp] theorem withData_result (d : Data) (s : State) : (s.withData d).result = d.result := rfl

/-- A command that the checks at issue accept is in the ranges of R84. -/
theorem wellFormed_of_check {v : Word} {i : Instr} (h : commandCheck v = .ok i) : i.wellFormed = true := by
  unfold commandCheck at h
  split at h
  · cases h
  · split at h
    · cases h; assumption
    · cases h

/-- The pending command of an engine step passed the checks. -/
theorem pendingCommand_ok {s : State} {i : Instr} (h : s.pendingCommand = .ok i) :
    ∃ p, s.pend = some p ∧ commandCheck p.word = .ok i := by
  unfold State.pendingCommand at h
  split at h
  · cases h
  · rename_i p hp
    split at h
    · cases h
    · cases h; exact ⟨p, hp, ‹_›⟩

/-- The completion step of a pending command (R66). -/
theorem engineStep_of_pending {s : State} {i : Instr} (h : s.pendingCommand = .ok i) :
    s.engineStep = .next (s.withData (dataAfter i s.data)).retire := by
  obtain ⟨p, -, hp⟩ := pendingCommand_ok h
  simp [State.engineStep, h, exec_of_wellFormed (wellFormed_of_check hp), retireNext]

/-- An engine step that answers a next state completed a pending command. -/
theorem engineStep_next {s t : State} (h : s.engineStep = .next t) :
    ∃ i, s.pendingCommand = .ok i ∧ i.wellFormed = true ∧ t = (s.withData (dataAfter i s.data)).retire := by
  cases hp : s.pendingCommand with
  | error f => simp [State.engineStep, hp] at h
  | ok i =>
    rw [engineStep_of_pending hp] at h
    obtain ⟨p, -, hc⟩ := pendingCommand_ok hp
    cases h
    exact ⟨i, rfl, wellFormed_of_check hc, rfl⟩

end Sys2Proof.Machine
end

