-- ==== Sys2Proof/Laws/Operands.lean ====
section
/-! SUPPORT. Bytes of words and cells of blocks: building and reading undo each other; and the fields of a command
word. -/

namespace Sys2Proof.Machine

/-- R13: reading cell (r, c) of a block built from its cells. -/
@[simp] theorem cell_ofCells (f : Fin 4 → Fin 4 → Byte) (r c : Fin 4) : cell (ofCells f) r c = f r c := by
  have hr : Fin.ofNat 4 (r.val + 4 * c.val) = r := by ext; simp [Fin.ofNat]
  have hc : Fin.ofNat 4 ((r.val + 4 * c.val) / 4) = c := by ext; simp [Fin.ofNat]; omega
  simp only [cell, ofCells, Vector.getElem_ofFn, hr, hc]

/-- Two blocks with equal cells are equal (R13). -/
theorem block_ext {S T : Block} (h : ∀ r c, cell S r c = cell T r c) : S = T := by
  apply Vector.ext
  intro i hi
  have := h ⟨i % 4, by omega⟩ ⟨i / 4, by omega⟩
  simpa [cell, Nat.mod_add_div] using this

/-- A block is built from its own cells. -/
@[simp] theorem ofCells_cell (S : Block) : (ofCells fun r c => cell S r c) = S :=
  block_ext fun r c => by simp

/-- Byte j of word(b0, b1, b2, b3) is bj (R12). -/
theorem byteOf_wordOf (b0 b1 b2 b3 : Byte) (j : Fin 4) :
    byteOf (wordOf b0 b1 b2 b3) j = #v[b0, b1, b2, b3][j.val] := by
  fin_cases j <;> apply BitVec.eq_of_getLsbD_eq <;> intro i h <;> simp [byteOf, wordOf, h]
  all_goals interval_cases i <;> simp

/-- A word is word of its four bytes (R12). -/
theorem wordOf_byteOf (w : Word) : wordOf (byteOf w 0) (byteOf w 1) (byteOf w 2) (byteOf w 3) = w := by
  apply BitVec.eq_of_getLsbD_eq
  intro i h
  interval_cases i <;> simp [byteOf, wordOf]

@[simp] theorem opField_commandWord (b a op : Byte) : opField (commandWord b a op) = op := by
  apply BitVec.eq_of_getLsbD_eq
  intro i h
  interval_cases i <;> simp [opField, commandWord]

@[simp] theorem aField_commandWord (b a op : Byte) : aField (commandWord b a op) = a := by
  apply BitVec.eq_of_getLsbD_eq
  intro i h
  interval_cases i <;> simp [aField, commandWord]

@[simp] theorem bField_commandWord (b a op : Byte) : bField (commandWord b a op) = b := by
  apply BitVec.eq_of_getLsbD_eq
  intro i h
  interval_cases i <;> simp [bField, commandWord]

@[simp] theorem zField_commandWord (b a op : Byte) : zField (commandWord b a op) = 0 := by
  apply BitVec.eq_of_getLsbD_eq
  intro i h
  interval_cases i <;> simp [zField, commandWord]

/-- A word with Z = 0 is the command word of its B, A and OP fields (R80). -/
theorem commandWord_fields (v : Word) (h : zField v = 0) : commandWord (bField v) (aField v) (opField v) = v := by
  have hz : ∀ n, n < 8 → v.getLsbD (24 + n) = false := fun n hn => by
    have := congrArg (fun b => BitVec.getLsbD b n) h
    simpa [zField, hn] using this
  have h0 := hz 0; have h1 := hz 1; have h2 := hz 2; have h3 := hz 3
  have h4 := hz 4; have h5 := hz 5; have h6 := hz 6; have h7 := hz 7
  apply BitVec.eq_of_getLsbD_eq
  intro i hi
  interval_cases i <;> simp_all [opField, aField, bField, commandWord]

end Sys2Proof.Machine
end

