-- ==== Sys2Proof/Laws/PerInstr.lean ====
section
/-! SUPPORT. One lemma per command for statements about all of them: the fields of the assembled word. -/

namespace Sys2Proof.Laws.EncodedFields

open Sys2Proof.Machine

/-- The assembled word of a command has Z = 0, an opcode below 0x10, and 0 in each operand field that the command
does not use (R82, R83, R87). -/
def Statement (i : Instr) : Prop :=
  zField (encode i) = 0 ∧ (opField (encode i)).toNat < 0x10 ∧
  (usesA i = false → aField (encode i) = 0) ∧ (usesB i = false → bField (encode i) = 0)

end Sys2Proof.Laws.EncodedFields

theorem Sys2Proof.Laws.EncodedFields.nop : Sys2Proof.Laws.EncodedFields.Statement .nop := by
  simp [Statement, Sys2Proof.encode, Sys2Proof.Machine.usesA, Sys2Proof.Machine.usesB]

theorem Sys2Proof.Laws.EncodedFields.sbox (x : Sys2Proof.Byte) : Sys2Proof.Laws.EncodedFields.Statement (.sbox x) := by
  simp [Statement, Sys2Proof.encode, Sys2Proof.Machine.usesA, Sys2Proof.Machine.usesB]

theorem Sys2Proof.Laws.EncodedFields.invsbox (y : Sys2Proof.Byte) : Sys2Proof.Laws.EncodedFields.Statement (.invsbox y) := by
  simp [Statement, Sys2Proof.encode, Sys2Proof.Machine.usesA, Sys2Proof.Machine.usesB]

theorem Sys2Proof.Laws.EncodedFields.rcon (n : Sys2Proof.Byte) : Sys2Proof.Laws.EncodedFields.Statement (.rcon n) := by
  simp [Statement, Sys2Proof.encode, Sys2Proof.Machine.usesA, Sys2Proof.Machine.usesB]

theorem Sys2Proof.Laws.EncodedFields.gfmul (a b : Sys2Proof.Byte) : Sys2Proof.Laws.EncodedFields.Statement (.gfmul a b) := by
  simp [Statement, Sys2Proof.encode, Sys2Proof.Machine.usesA, Sys2Proof.Machine.usesB]

theorem Sys2Proof.Laws.EncodedFields.expand : Sys2Proof.Laws.EncodedFields.Statement .expand := by
  simp [Statement, Sys2Proof.encode, Sys2Proof.Machine.usesA, Sys2Proof.Machine.usesB]

theorem Sys2Proof.Laws.EncodedFields.subbytes : Sys2Proof.Laws.EncodedFields.Statement .subbytes := by
  simp [Statement, Sys2Proof.encode, Sys2Proof.Machine.usesA, Sys2Proof.Machine.usesB]

theorem Sys2Proof.Laws.EncodedFields.invsubbytes : Sys2Proof.Laws.EncodedFields.Statement .invsubbytes := by
  simp [Statement, Sys2Proof.encode, Sys2Proof.Machine.usesA, Sys2Proof.Machine.usesB]

theorem Sys2Proof.Laws.EncodedFields.shiftrows : Sys2Proof.Laws.EncodedFields.Statement .shiftrows := by
  simp [Statement, Sys2Proof.encode, Sys2Proof.Machine.usesA, Sys2Proof.Machine.usesB]

theorem Sys2Proof.Laws.EncodedFields.invshiftrows : Sys2Proof.Laws.EncodedFields.Statement .invshiftrows := by
  simp [Statement, Sys2Proof.encode, Sys2Proof.Machine.usesA, Sys2Proof.Machine.usesB]

theorem Sys2Proof.Laws.EncodedFields.mixcolumns : Sys2Proof.Laws.EncodedFields.Statement .mixcolumns := by
  simp [Statement, Sys2Proof.encode, Sys2Proof.Machine.usesA, Sys2Proof.Machine.usesB]

theorem Sys2Proof.Laws.EncodedFields.invmixcolumns : Sys2Proof.Laws.EncodedFields.Statement .invmixcolumns := by
  simp [Statement, Sys2Proof.encode, Sys2Proof.Machine.usesA, Sys2Proof.Machine.usesB]

theorem Sys2Proof.Laws.EncodedFields.addroundkey (r : Sys2Proof.Byte) : Sys2Proof.Laws.EncodedFields.Statement (.addroundkey r) := by
  simp [Statement, Sys2Proof.encode, Sys2Proof.Machine.usesA, Sys2Proof.Machine.usesB]

theorem Sys2Proof.Laws.EncodedFields.encrypt : Sys2Proof.Laws.EncodedFields.Statement .encrypt := by
  simp [Statement, Sys2Proof.encode, Sys2Proof.Machine.usesA, Sys2Proof.Machine.usesB]

theorem Sys2Proof.Laws.EncodedFields.decrypt : Sys2Proof.Laws.EncodedFields.Statement .decrypt := by
  simp [Statement, Sys2Proof.encode, Sys2Proof.Machine.usesA, Sys2Proof.Machine.usesB]

theorem Sys2Proof.Laws.EncodedFields.zeroize : Sys2Proof.Laws.EncodedFields.Statement .zeroize := by
  simp [Statement, Sys2Proof.encode, Sys2Proof.Machine.usesA, Sys2Proof.Machine.usesB]
end

