-- ==== Sys2Proof/Laws/Port.lean ====
section
/-! SUPPORT. What an access can do, said once: the cases of a write, of a read and of a performed access. -/

namespace Sys2Proof.Machine

/-- The offset of each register (R51). -/
def regOffset : Reg → Offset
  | .cmd => 0x000
  | .status => 0x004
  | .result => 0x008
  | .key j => BitVec.ofNat 12 (0x010 + 4 * j.val)
  | .state j => BitVec.ofNat 12 (0x020 + 4 * j.val)
  | .rk i => BitVec.ofNat 12 (0x100 + 4 * i.val)

theorem select_regOffset (r : Reg) : select .word (regOffset r) = some r := by
  cases r with
  | key j => revert j; decide
  | state j => revert j; decide
  | rk i => revert i; decide
  | _ => decide

/-- The access that reaches register r is a 32-bit access at its offset (R51, R53, R54). -/
theorem select_eq_some_iff {size : Size} {off : Offset} {r : Reg} :
    select size off = some r ↔ size = .word ∧ off = regOffset r := by
  constructor
  · intro h
    unfold select at h
    split_ifs at h with hs
    refine ⟨hs.1, BitVec.eq_of_toNat_eq ?_⟩
    unfold regAt at h
    simp only at h
    split_ifs at h <;> cases h <;> simp [regOffset] <;> omega
  · rintro ⟨rfl, rfl⟩
    exact select_regOffset r

/-- What a write can do to the state (R30, R53 to R55, R57 to R59). -/
inductive WriteEffect (size : Size) (off : Offset) (v : Word) (s : State) : State → Prop where
  | nothing (h : select size off = none ∨ select size off = some .result ∨ (∃ i, select size off = some (.rk i)) ∨
      select size off = some .status ∧ v.getLsbD 2 = false) : WriteEffect size off v s s
  | clear (h : select size off = some .status) (hv : v.getLsbD 2 = true) : WriteEffect size off v s s.clearErr
  | busy {r : Reg} (h : select size off = some r) (hr : r = .cmd ∨ (∃ j, r = .key j) ∨ ∃ j, r = .state j)
      (hb : s.busy = true) : WriteEffect size off v s (s.raise .busyWrite)
  | refused {e : CmdError} (h : select size off = some .cmd) (hb : s.busy = false) (he : commandCheck v = .error e) :
      WriteEffect size off v s (s.raise e)
  | accepted {i : Instr} (h : select size off = some .cmd) (hb : s.busy = false) (hi : commandCheck v = .ok i) :
      WriteEffect size off v s (s.accept (Pending.ofWord v))
  | key {j : Fin 4} (h : select size off = some (.key j)) (hb : s.busy = false) :
      WriteEffect size off v s (s.setKey (setBlockWord s.key j v))
  | state {j : Fin 4} (h : select size off = some (.state j)) (hb : s.busy = false) :
      WriteEffect size off v s (s.setSt (setBlockWord s.st j v))

/-- Every write is one of the cases. -/
theorem portWrite_effect (size : Size) (off : Offset) (v : Word) (s : State) :
    WriteEffect size off v s (portWrite size off v s).2 := by
  unfold portWrite
  split
  · exact .nothing (.inl ‹_›)
  · rename_i r h
    cases r with
    | cmd =>
      cases hb : s.busy with
      | true => simpa [writeReg, State.writeCmd, hb] using WriteEffect.busy h (.inl rfl) hb
      | false =>
        cases hc : commandCheck v with
        | error e => simpa [writeReg, State.writeCmd, hb, hc] using WriteEffect.refused h hb hc
        | ok i => simpa [writeReg, State.writeCmd, hb, hc] using WriteEffect.accepted h hb hc
    | status =>
      cases hv : v.getLsbD 2 with
      | true => simpa only [writeReg, State.writeStatus, hv, ↓reduceIte, Bool.false_eq_true] using WriteEffect.clear h hv
      | false => simpa only [writeReg, State.writeStatus, hv, ↓reduceIte, Bool.false_eq_true] using WriteEffect.nothing (.inr (.inr (.inr ⟨h, hv⟩)))
    | result => exact .nothing (.inr (.inl h))
    | key j =>
      cases hb : s.busy with
      | true => simpa [writeReg, State.writeKey, hb] using WriteEffect.busy h (.inr (.inl ⟨j, rfl⟩)) hb
      | false => simpa [writeReg, State.writeKey, hb] using WriteEffect.key h hb
    | state j =>
      cases hb : s.busy with
      | true => simpa [writeReg, State.writeState, hb] using WriteEffect.busy h (.inr (.inr ⟨j, rfl⟩)) hb
      | false => simpa [writeReg, State.writeState, hb] using WriteEffect.state h hb
    | rk i => exact .nothing (.inr (.inr (.inl ⟨i, h⟩)))

/-- A read uses up a draw or changes nothing (R63, R64). -/
theorem afterRead_cases (size : Size) (off : Offset) (s : State) :
    s.afterRead size off = s ∨ s.afterRead size off = s.countDraw := by
  unfold State.afterRead
  split
  · exact .inl rfl
  · split
    · exact .inr rfl
    · exact .inl rfl

/-- What performing an access can do: a read or a poll tells the host and may use up a draw, a write has one of its
effects, a reset resets. -/
theorem perform_cases (op : HostOp) (s : State) :
    (∃ x, s.perform op = s.record x ∨ s.perform op = s.countDraw.record x) ∨
    (∃ size off v t x, op = .write size off v ∧ WriteEffect size off v s t ∧ s.perform op = t.record x) ∨
    (op = .reset ∧ s.perform op = s.resetBlock) := by
  cases op with
  | read size off =>
    left
    rcases afterRead_cases size off s with h | h
    · exact ⟨_, .inl (by simp only [State.perform, h]; rfl)⟩
    · exact ⟨_, .inr (by simp only [State.perform, h]; rfl)⟩
  | write size off v => exact .inr (.inl ⟨size, off, v, _, _, rfl, portWrite_effect size off v s, rfl⟩)
  | poll => exact .inl ⟨_, .inl rfl⟩
  | reset => exact .inr (.inr ⟨rfl, rfl⟩)

/-- At least one access may arrive when there is one, and no more than there are. -/
theorem mayArrive_bounds (l : List HostOp) (h : l ≠ []) : 1 ≤ mayArrive l ∧ mayArrive l ≤ l.length := by
  induction l with
  | nil => exact absurd rfl h
  | cons op rest ih =>
    unfold mayArrive
    split
    · rename_i hw
      have hr : rest ≠ [] := by rintro rfl; simp at hw
      have := ih hr
      simp; omega
    · simp

/-- The accesses that a later one passes are writes. -/
theorem isWrite_of_lt_mayArrive (l : List HostOp) (k : Nat) (h : k < mayArrive l) :
    ∀ x ∈ l.take k, x.isWrite = true := by
  induction l generalizing k with
  | nil => simp
  | cons op rest ih =>
    unfold mayArrive at h
    cases k with
    | zero => simp
    | succ k =>
      split at h
      · rename_i hw
        simp only [Bool.and_eq_true] at hw
        simp only [List.take_succ_cons, List.mem_cons, forall_eq_or_imp]
        exact ⟨hw.1, ih k (by omega)⟩
      · omega

theorem arrivalIndex_lt (s : State) (h : s.host ≠ []) : s.arrivalIndex < mayArrive s.host := by
  have hb := mayArrive_bounds s.host h
  unfold State.arrivalIndex
  split
  · omega
  · split
    · omega
    · exact Nat.mod_lt _ (by omega)

/-- The host moves whenever it has an access waiting. -/
theorem nextAccess_of_ne_nil (s : State) (h : s.host ≠ []) :
    ∃ op, s.host[s.arrivalIndex]? = some op ∧ s.nextAccess = some (op, s.host.eraseIdx s.arrivalIndex) := by
  have hlt : s.arrivalIndex < s.host.length :=
    lt_of_lt_of_le (arrivalIndex_lt s h) (mayArrive_bounds s.host h).2
  exact ⟨s.host[s.arrivalIndex], by simp, by simp [State.nextAccess, List.getElem?_eq_getElem hlt]⟩

end Sys2Proof.Machine
end

