-- ==== Sys2Proof/Laws/Round.lean ====
section
/-! SUPPORT. The round primitives cell by cell, so that no later proof unfolds how a block is stored; and how the
keyed commands compose. -/

namespace Sys2Proof.Machine

@[simp] theorem cell_setBlockWord (S : Block) (j : Fin 4) (v : Word) (r c : Fin 4) :
    cell (setBlockWord S j v) r c = if c = j then byteOf v r else cell S r c := by simp [setBlockWord]

@[simp] theorem cell_subBytes (S : Block) (r c : Fin 4) : cell (subBytes S) r c = sboxRom (cell S r c) := by
  simp [cell, subBytes]

@[simp] theorem cell_invSubBytes (S : Block) (r c : Fin 4) : cell (invSubBytes S) r c = invSboxRom (cell S r c) := by
  simp [cell, invSubBytes]

@[simp] theorem cell_shiftRows (S : Block) (r c : Fin 4) : cell (shiftRows S) r c = cell S r (c + r) := by
  simp [shiftRows]

@[simp] theorem cell_invShiftRows (S : Block) (r c : Fin 4) : cell (invShiftRows S) r c = cell S r (c - r) := by
  simp [invShiftRows]

theorem cell_mixWith (m : Vector (Vector Byte 4) 4) (S : Block) (r c : Fin 4) :
    cell (mixWith m S) r c =
      gfmul m[r.val][0] (cell S 0 c) ^^^ gfmul m[r.val][1] (cell S 1 c) ^^^
        gfmul m[r.val][2] (cell S 2 c) ^^^ gfmul m[r.val][3] (cell S 3 c) := by
  simp [mixWith]

@[simp] theorem cell_addRoundKey (S : Block) (W : Schedule) (r : Fin 11) (j c : Fin 4) :
    cell (addRoundKey S W r) j c = cell S j c ^^^ byteOf (roundWord W r c) j := by
  simp [addRoundKey]

/-- XOR of words is XOR of their bytes. -/
@[simp] theorem byteOf_xor (v w : Word) (j : Fin 4) : byteOf (v ^^^ w) j = byteOf v j ^^^ byteOf w j := by
  apply BitVec.eq_of_getLsbD_eq
  intro i h
  simp [byteOf, h]

/-- One keyed command after another: the schedule is expanded once (R132). -/
theorem dataWithSchedule_comp (f g : Block → Schedule → Block) (d : Data) :
    dataWithSchedule g (dataWithSchedule f d) = dataWithSchedule (fun S W => g (f S W) W) d := by
  cases h : d.kv <;> simp [dataWithSchedule, h]

/-- A keyed command and then a change of ST by g. -/
theorem dataWithSchedule_map (f : Block → Schedule → Block) (g : Block → Block) (d : Data) :
    { dataWithSchedule f d with st := g (dataWithSchedule f d).st } =
      dataWithSchedule (fun S W => g (f S W)) d := by
  cases h : d.kv <;> simp [dataWithSchedule, h]

end Sys2Proof.Machine
end

