-- ==== Sys2Proof/Laws/Step.lean ====
section
/-! SUPPORT. What a step can do, said once. -/

namespace Sys2Proof.Machine

/-- A step that answers a next state completed the pending command, or performed the host's next access, or had
nothing to do (R66, R67, R192). -/
theorem step_cases {s t : State} (h : step s = .next t) :
    (s.engineMoves = true ∧ ∃ i, s.pendingCommand = .ok i ∧ i.wellFormed = true ∧
      t = (s.withData (dataAfter i s.data)).retire) ∨
    (∃ op rest, s.HostMoves op rest ∧ t = (s.takeAccess op rest).perform op) ∨
    (s.engineMoves = false ∧ s.nextAccess = none ∧ t = s) := by
  unfold step at h
  cases he : s.engineMoves with
  | true => simp only [he, ↓reduceIte] at h; exact .inl ⟨rfl, engineStep_next h⟩
  | false =>
    simp only [he, Bool.false_eq_true, ↓reduceIte] at h
    cases h
    unfold State.hostStep
    cases hn : s.nextAccess with
    | none => exact .inr (.inr ⟨rfl, rfl, rfl⟩)
    | some x => exact .inr (.inl ⟨x.1, x.2, ⟨he, hn⟩, rfl⟩)

/-- The engine moves only while BUSY = 1 (R66). -/
theorem busy_of_engineMoves {s : State} (h : s.engineMoves = true) : s.busy = true := by
  unfold State.engineMoves at h
  split at h
  · assumption
  · cases h

end Sys2Proof.Machine
end

