-- ==== Sys2Proof/Tests/Slice0.lean ====
section
/-! SUPPORT. Small tests, each on one step or one operation, and for every statement that has hypotheses a witness
that meets them. Expected values come from the rules and from 95_test_vectors.md, as each comment says. -/

namespace Sys2Proof.Tests

open Sys2Proof.Machine

/-- The outcome is a next state of which p holds. -/
def nextIs (o : Host.Outcome State Fault Refusal) (p : State → Bool) : Bool :=
  match o with
  | .next t => p t
  | .fault _ => false
  | .refused _ => false

/-- Reset state with ST = the four words. -/
def withSt (w0 w1 w2 w3 : Word) : State := { State.reset with st := blockOfWords w0 w1 w2 w3 }

/-- Reset state with KEY and ST. -/
def withKeySt (k s : Block) : State := { State.reset with key := k, st := s }

/-- The corrected key of 95_test_vectors.md L1-1. -/
def keyL1 : Block := blockOfWords 0x2b7e1516 0x28aed2a6 0xabf71588 0x09cf4f3c

/-- Reset state with a command pending. -/
def pending (op a b : Byte) : State := { State.reset with busy := true, pend := some { op := op, a := a, b := b } }

/-- Reset state with one access to perform. -/
def hostDoes (op : HostOp) : State := State.start [op]

/-- ST of the next state is the four words. -/
def stIs (o : Host.Outcome State Fault Refusal) (w0 w1 w2 w3 : Word) : Bool :=
  nextIs o fun t => decide (t.st = blockOfWords w0 w1 w2 w3)

/-- RESULT of the next state. -/
def resultIs (o : Host.Outcome State Fault Refusal) (v : Byte) : Bool := nextIs o fun t => decide (t.result = v)

/-- STATUS of the next state. -/
def statusIs (o : Host.Outcome State Fault Refusal) (v : Word) : Bool := nextIs o fun t => decide (t.statusWord = v)

/-- The response and data of the newest transaction of the next state. -/
def told (o : Host.Outcome State Fault Refusal) (r : Resp) (d : Option Word) : Bool :=
  nextIs o fun t => decide ((t.trace.head?.map fun x => (x.resp, x.data)) = some (r, d))

/- ## Well-formedness: an ill-formed term for each check (R84) -/

theorem test_rcon_0_ill_formed : (Instr.rcon 0).wellFormed = false := by decide
theorem test_rcon_11_ill_formed : (Instr.rcon 11).wellFormed = false := by decide
theorem test_addroundkey_11_ill_formed : (Instr.addroundkey 11).wellFormed = false := by decide
theorem test_range_ends_well_formed :
    (Instr.rcon 1).wellFormed = true ∧ (Instr.rcon 10).wellFormed = true ∧
    (Instr.addroundkey 0).wellFormed = true ∧ (Instr.addroundkey 10).wellFormed = true := by decide

/- ## Decoding: words written out from the opcode map (30_encoding.md) -/

theorem test_decode_nop : decode 0x00000000 = .ok .nop := by decide
theorem test_decode_sbox : decode 0x00005301 = .ok (.sbox 0x53) := by decide
theorem test_decode_invsbox : decode 0x0000ED02 = .ok (.invsbox 0xED) := by decide
theorem test_decode_rcon : decode 0x00000A03 = .ok (.rcon 10) := by decide
theorem test_decode_gfmul : decode 0x00835704 = .ok (.gfmul 0x57 0x83) := by decide
theorem test_decode_expand : decode 0x00000005 = .ok .expand := by decide
theorem test_decode_subbytes : decode 0x00000006 = .ok .subbytes := by decide
theorem test_decode_invsubbytes : decode 0x00000007 = .ok .invsubbytes := by decide
theorem test_decode_shiftrows : decode 0x00000008 = .ok .shiftrows := by decide
theorem test_decode_invshiftrows : decode 0x00000009 = .ok .invshiftrows := by decide
theorem test_decode_mixcolumns : decode 0x0000000A = .ok .mixcolumns := by decide
theorem test_decode_invmixcolumns : decode 0x0000000B = .ok .invmixcolumns := by decide
theorem test_decode_addroundkey : decode 0x0000010C = .ok (.addroundkey 1) := by decide
theorem test_decode_encrypt : decode 0x0000000D = .ok .encrypt := by decide
theorem test_decode_decrypt : decode 0x0000000E = .ok .decrypt := by decide
theorem test_decode_zeroize : decode 0x0000000F = .ok .zeroize := by decide

/-- L2-9: the rejected words, each with its reason. -/
theorem test_decode_rejects :
    decode 0x00000010 = .error .reservedOpcode ∧ decode 0x000000FF = .error .reservedOpcode ∧
    decode 0x80000000 = .error .reservedField ∧ decode 0x01835704 = .error .reservedField ∧
    decode 0x00010001 = .error .unusedOperand ∧ decode 0x00010005 = .error .unusedOperand ∧
    decode 0x0000010D = .error .unusedOperand := by decide

/-- R184: Z is checked before the operand range. -/
theorem test_check_order : commandCheck 0x01000B0C = .error .illegalCmd ∧ commandCheck 0x00000B0C = .error .badOperand := by
  decide

/-- The rows of the opcode table do not overlap: no two of them agree on the bits both masks fix. -/
theorem test_table_rows_disjoint :
    Claim.opcodeTable.Pairwise fun x y => x.2.1 &&& y.2.2 ≠ y.2.1 &&& x.2.2 := by decide

/- ## The commands: 95_test_vectors.md L2-1 to L2-8 -/

theorem test_sbox : resultIs (exec (.sbox 0x53) State.reset) 0xED = true := by decide
theorem test_sbox_ff : resultIs (exec (.sbox 0xFF) State.reset) 0x16 = true := by decide
theorem test_invsbox : resultIs (exec (.invsbox 0xED) State.reset) 0x53 = true := by decide
theorem test_invsbox_ff : resultIs (exec (.invsbox 0xFF) State.reset) 0x7D = true := by decide
theorem test_rcon : resultIs (exec (.rcon 10) State.reset) 0x36 = true := by decide
theorem test_rcon_0 : statusIs (exec (.rcon 0) State.reset) 0x204 = true := by decide
theorem test_gfmul : resultIs (exec (.gfmul 0x57 0x83) State.reset) 0xC1 = true := by decide
theorem test_gfmul_ff : resultIs (exec (.gfmul 0xFF 0xFF) State.reset) 0x13 = true := by decide

theorem test_expand :
    nextIs (exec .expand (withKeySt keyL1 (Vector.replicate 16 0)))
      (fun t => decide (t.w[4] = 0xA0FAFE17 ∧ t.w[43] = 0xB6630CA6 ∧ t.kv = true)) = true := by decide +kernel
theorem test_expand_zero_key :
    nextIs (exec .expand State.reset)
      (fun t => decide (t.w[4] = 0x62636363 ∧ t.w[43] = 0x6F8F188E)) = true := by decide +kernel

theorem test_subbytes : stIs (exec .subbytes (withSt 0x193de3be 0xa0f4e22b 0x9ac68d2a 0xe9f84808))
    0xd42711ae 0xe0bf98f1 0xb8b45de5 0x1e415230 = true := by decide +kernel
theorem test_invsubbytes : stIs (exec .invsubbytes (withSt 0xd42711ae 0xe0bf98f1 0xb8b45de5 0x1e415230))
    0x193de3be 0xa0f4e22b 0x9ac68d2a 0xe9f84808 = true := by decide +kernel
theorem test_shiftrows : stIs (exec .shiftrows (withSt 0x00010203 0x04050607 0x08090a0b 0x0c0d0e0f))
    0x00050a0f 0x04090e03 0x080d0207 0x0c01060b = true := by decide +kernel
theorem test_invshiftrows : stIs (exec .invshiftrows (withSt 0x00010203 0x04050607 0x08090a0b 0x0c0d0e0f))
    0x000d0a07 0x04010e0b 0x0805020f 0x0c090603 = true := by decide +kernel
theorem test_mixcolumns : stIs (exec .mixcolumns (withSt 0xdb135345 0xf20a225c 0xd4d4d4d5 0x2d26314c))
    0x8e4da1bc 0x9fdc589d 0xd5d5d7d6 0x4d7ebdf8 = true := by decide +kernel
theorem test_invmixcolumns : stIs (exec .invmixcolumns (withSt 0xdb135345 0xf20a225c 0xd4d4d4d5 0x2d26314c))
    0x32a41d55 0xaec36982 0xddd9dfda 0xa05050d6 = true := by decide +kernel
theorem test_addroundkey_10 : stIs (exec (.addroundkey 10) (withKeySt keyL1 (Vector.replicate 16 0)))
    0xd014f9a8 0xc9ee2589 0xe13f0cc8 0xb6630ca6 = true := by decide +kernel
theorem test_addroundkey_11 : statusIs (exec (.addroundkey 11) State.reset) 0x204 = true := by decide

/-- L1-1, with the corrected key of 90_conflicts.md C1. -/
theorem test_encrypt :
    stIs (exec .encrypt (withKeySt keyL1 (blockOfWords 0x6bc1bee2 0x2e409f96 0xe93d7e11 0x7393172a)))
      0x3ad77bb4 0x0d7a3660 0xa89ecaf3 0x2466ef97 = true := by decide +kernel
/-- L2-7: DECRYPT of the zero block under the zero key. -/
theorem test_decrypt_zero : stIs (exec .decrypt State.reset) 0x140f0f10 0x11b5223d 0x79587717 0xffd9ec3a = true := by
  decide +kernel
theorem test_zeroize :
    nextIs (exec .zeroize { withKeySt keyL1 keyL1 with result := 0x36, err := true, errcode := 2 })
      (fun t => decide (t = { State.reset with err := true, errcode := 2 })) = true := by decide
theorem test_nop : nextIs (step (pending 0 0 0)) (fun t => decide (t = State.reset)) = true := by decide

/- ## The port and the steps: 95_test_vectors.md L2-9 to L2-11 and P3 -/

theorem test_cmd_accepted : statusIs (step (hostDoes (wr 0x000 0x00000A03))) 0x00000001 = true := by decide
theorem test_cmd_illegal : statusIs (step (hostDoes (wr 0x000 0x0000010D))) 0x00000104 = true := by decide
theorem test_cmd_bad_operand : statusIs (step (hostDoes (wr 0x000 0x0000FF0C))) 0x00000204 = true := by decide
theorem test_cmd_while_busy : ((pending 6 0 0).perform (wr 0x000 0x00000B0C)).statusWord = 0x00000305 := by decide
theorem test_state_write_while_busy :
    ((pending 6 0 0).perform (wr 0x020 0xDEADBEEF)).st = State.reset.st ∧
    ((pending 6 0 0).perform (wr 0x020 0xDEADBEEF)).statusWord = 0x00000305 := by decide
theorem test_completion_keeps_err :
    statusIs (step { pending 6 0 0 with err := true, errcode := 3 }) 0x00000304 = true := by decide
theorem test_first_code_kept :
    statusIs (step { hostDoes (wr 0x000 0x00000010) with err := true, errcode := 2 }) 0x00000204 = true := by decide
theorem test_status_write_bit_2_clear :
    statusIs (step { hostDoes (wr 0x004 0xFFFFFFFB) with err := true, errcode := 2 }) 0x00000204 = true := by decide
theorem test_status_write_bit_2_set :
    statusIs (step { hostDoes (wr 0x004 0xFFFFFFFF) with err := true, errcode := 2 }) 0x00000000 = true := by decide
theorem test_read_unmapped : told (step (hostDoes (rd 0x00C))) .error (some 0) = true := by decide
theorem test_read_past_rk43 : told (step (hostDoes (rd 0x1B0))) .error (some 0) = true := by decide
theorem test_write_misaligned : told (step (hostDoes (wr 0x022 0))) .error none = true := by decide
theorem test_write_result : told (step (hostDoes (wr 0x008 1))) .error none = true := by decide
theorem test_half_access : told (step (hostDoes (.read .half 0x004))) .error (some 0) = true := by decide
theorem test_key_reads_zero :
    told (step { hostDoes (rd 0x010) with key := keyL1 }) .okay (some 0) = true := by decide
theorem test_state_read : told (step { hostDoes (rd 0x02C) with st := keyL1 }) .okay (some 0x09CF4F3C) = true := by
  decide
theorem test_rk_masked : told (step { hostDoes (rd 0x1AC) with w := Vector.replicate 44 1 }) .okay (some 0) = true := by
  decide
theorem test_rk_read :
    told (step { hostDoes (rd 0x1AC) with w := Vector.replicate 44 1, kv := true }) .okay (some 1) = true := by decide
theorem test_key_write :
    nextIs (step { hostDoes (wr 0x010 0x2B7E1516) with kv := true })
      (fun t => decide (blockWord t.key 0 = 0x2B7E1516 ∧ blockWord t.key 1 = 0 ∧ t.kv = false)) = true := by decide
theorem test_busy_read_is_draw :
    (pending 6 0 0).perform (rd 0x020) =
      { pending 6 0 0 with
        draws := 1
        trace := [{ op := rd 0x020, resp := .okay, data := some (Config.draw 0 State.reset.data) }] } := rfl
theorem test_poll_waits : ((pending 6 0 0).takeAccess .poll []).host = [] ∧
    ({ pending 6 0 0 with host := [.poll] }.takeAccess .poll []).host = [.poll] := by decide
theorem test_reset_abandons_command : (pending 13 0 0).perform .reset = State.reset := by decide
theorem test_load_key : loadKey keyL1 =
    [wr 0x010 0x2B7E1516, wr 0x014 0x28AED2A6, wr 0x018 0xABF71588, wr 0x01C 0x09CF4F3C] := by decide

/- ## The very next step of withFetchWord -/

theorem test_fetch_sbox : resultIs (step (State.reset.withFetchWord 32 0x5301)) 0xED = true := by decide
theorem test_fetch_refused : statusIs (step (State.reset.withFetchWord 32 0x00000003)) 0x00000204 = true := by decide

/- ## Witnesses: for each statement with hypotheses, a case that meets them -/

/-- DecodeInvertsEncode, LegalCommandsComplete, ErrorsDoNotDisturb: the range ends are test_range_ends_well_formed. -/
theorem witness_encode_inverts_decode : decode 0x00835704 = .ok (.gfmul 0x57 0x83) := by decide
theorem witness_rcon_ends : 1 ≤ (1 : Byte).toNat ∧ (1 : Byte).toNat ≤ 9 ∧ 1 ≤ (9 : Byte).toNat ∧ (9 : Byte).toNat ≤ 9 := by
  decide
theorem witness_field_inverse : (0xFF : Byte) ≠ 0 := by decide
/-- ExpandRecurrence: w[0], w[3], w[4], w[5], w[40] and w[43] fall under one clause each, and the round constant of
w[4] and of w[40] exists. -/
theorem witness_expand_clauses : 0 < 4 ∧ 3 < 4 ∧ 4 % 4 = 0 ∧ 5 % 4 ≠ 0 ∧ 40 % 4 = 0 ∧ 43 % 4 ≠ 0 ∧ 43 < 44 := by decide
theorem witness_expand_rcon :
    exec (.rcon (BitVec.ofNat 8 (4 / 4))) State.reset = .next { State.reset with result := 0x01 } ∧
    exec (.rcon (BitVec.ofNat 8 (40 / 4))) State.reset = .next { State.reset with result := 0x36 } := ⟨rfl, rfl⟩
/-- ImplicitExpansion: each of the three commands, at r = 10, and both values of KV. -/
theorem witness_implicit_expansion :
    ((∃ r : Byte, r.toNat ≤ 10 ∧ Instr.addroundkey 10 = .addroundkey r)) ∧ State.reset.kv = false ∧
    ({ State.reset with kv := true } : State).kv = true := ⟨⟨10, by decide, rfl⟩, rfl, rfl⟩
theorem witness_schedule_valid : State.reset.ScheduleValid ∧ (10 : Byte).toNat ≤ 10 :=
  ⟨fun h => Bool.noConfusion h, by decide⟩
theorem witness_equal_column : ∀ r : Fin 4, (withSt 0x01010101 0 0 0).st[r.val + 4 * (0 : Fin 4).val] = 0x01 := by decide
/-- MixColumnsCommand and InvMixColumnsCommand: a column db 13 53 45 and its four bytes, in columns 0 and 3. -/
theorem witness_column_bytes : ∀ c : Fin 4, c = 0 ∨ c = 3 →
    (withSt 0xDB135345 0 0 0xDB135345).st[4 * c.val] = 0xDB ∧ (withSt 0xDB135345 0 0 0xDB135345).st[4 * c.val + 1] = 0x13 ∧
    (withSt 0xDB135345 0 0 0xDB135345).st[4 * c.val + 2] = 0x53 ∧
    (withSt 0xDB135345 0 0 0xDB135345).st[4 * c.val + 3] = 0x45 := by decide
/-- WindowAtBase: BASE is the address of offset 0. -/
theorem witness_window : Config.offset? Config.base = some 0 ∧ Config.base < Config.base + 4096 := by
  simp [Config.offset?]
/-- ReadsChangeNothing: a read of each width, and a poll. -/
theorem witness_reads : (∃ size off, HostOp.read .byte 0x008 = .read size off) ∧ HostOp.poll = .poll := ⟨⟨_, _, rfl⟩, rfl⟩
theorem witness_nop_completes : Claim.Completes (pending 0x00 0 0) .nop := ⟨by decide, by decide⟩
theorem witness_zeroize_reads : State.reset.busy = false ∧ (0x1AC : Offset) ≠ 0x004 := by decide
theorem witness_out_of_range : ((0 : Byte) = 0 ∨ 10 < (0 : Byte).toNat) ∧ 10 < (11 : Byte).toNat := by decide
/-- StepKeepsInv, InvNeverStops, ErrorsDoNotDisturb: the reset state keeps the invariant. -/
theorem witness_inv : State.reset.Inv where
  schedule := fun h => Bool.noConfusion h
  pending := by simp [State.BusyIffPending]
  legal := fun p h => by simp at h
  code := by simp [State.CodeLegal]
theorem witness_idle_step : step State.reset = .next State.reset := rfl
/-- FirstErrorIsSticky: a step that keeps ERR, one that clears it by STATUS and one by reset, and an engine step. -/
theorem witness_err_kept :
    nextIs (step { hostDoes (rd 0x000) with err := true, errcode := 1 }) (fun t => t.err) = true := by decide
theorem witness_err_cleared :
    nextIs (step { hostDoes (wr 0x004 4) with err := true, errcode := 1 }) (fun t => !t.err) = true ∧
    nextIs (step { hostDoes .reset with err := true, errcode := 1 }) (fun t => !t.err) = true := by decide
theorem witness_engine_moves : (pending 0x06 0 0).engineMoves = true := by decide
/-- ErrorsComeFromPortWrites: a step that sets ERR. -/
theorem witness_err_raised : nextIs (step (hostDoes (wr 0x000 0x10))) (fun t => t.err) = true := by decide
/-- RejectedAccesses: an offset at each end of each clause. -/
theorem witness_rejected :
    Size.half ≠ .word ∧ (0x001 : Offset).toNat % 4 ≠ 0 ∧ (0x030 ≤ (0x030 : Offset).toNat ∧ (0x0FF : Offset).toNat ≤ 0x0FF) ∧
    0x1B0 ≤ (0x1B0 : Offset).toNat ∧ 0x1B0 ≤ (0xFFF : Offset).toNat ∧ 0x100 ≤ (0x100 : Offset).toNat ∧
    (0x1AC : Offset).toNat ≤ 0x1AC := by decide
theorem witness_write_only : Claim.off 0x010 (0 : Fin 4) = 0x010 ∧ Claim.off 0x010 (3 : Fin 4) = 0x01C := by decide
/-- CmdWrite: a legal word, an illegal one and an out-of-range one (L2-9). -/
theorem witness_cmd_illegal : Claim.Illegal 0x00010001 := by simp [Claim.Illegal, Claim.op, Claim.a, Claim.b, Claim.z]
theorem witness_cmd_out_of_range : ¬Claim.Illegal 0x00000B03 ∧ Claim.OutOfRange 0x00000B03 := by
  simp [Claim.Illegal, Claim.OutOfRange, Claim.op, Claim.a, Claim.b, Claim.z]
theorem witness_cmd_legal : ¬Claim.Illegal 0x00000A0C ∧ ¬Claim.OutOfRange 0x00000A0C := by
  simp [Claim.Illegal, Claim.OutOfRange, Claim.op, Claim.a, Claim.b, Claim.z]
/-- CmdWrite, KeyWrite, StateWrite, DataReads, BusyProtectsCommand: a busy state and an idle one. -/
theorem witness_busy_idle : (pending 0x06 0 0).busy = true ∧ State.reset.busy = false ∧ rd 0x020 ≠ .reset := by decide
/-- DataReads: STATE0, STATE3, RESULT, RK0 and RK43. -/
theorem witness_data_reads :
    Claim.off 0x020 (0 : Fin 4) = 0x020 ∧ Claim.off 0x020 (3 : Fin 4) = 0x02C ∧ Claim.off 0x100 (0 : Fin 44) = 0x100 ∧
    Claim.off 0x100 (43 : Fin 44) = 0x1AC ∧ (∀ k : Fin 4, Claim.byte 0x09CF4F3C k = keyL1[4 * 3 + k.val]) := by decide
theorem witness_idle_reads : State.reset.busy = false ∧ State.reset.kv = false := by decide
/-- EngineStepRunsPending: the pending command decodes to a legal command. -/
theorem witness_pending_decodes :
    decode (Pending.word { op := 0x0C, a := 10, b := 0 }) = .ok (.addroundkey 10) ∧
    (pending 0x0C 10 0).pend = some { op := 0x0C, a := 10, b := 0 } ∧ (pending 0x0C 10 0).engineMoves = true := by decide
theorem witness_fetch_word :
    commandCheck (tableWord 32 0x0000000D) = .ok .encrypt ∧ commandCheck (tableWord 8 0x10) = .error .illegalCmd := by
  decide
/-- HostStepPerformsAccess and ArrivalOrder: an access arrives. -/
theorem witness_host_moves : (hostDoes (rd 0x004)).HostMoves (rd 0x004) [] := ⟨by decide, by decide⟩
/-- Each step that changes KEY, W, RESULT, KV or BUSY in the way a statement names. -/
theorem witness_key_changes :
    nextIs (step (hostDoes (wr 0x01C 1))) (fun t => decide (t.key ≠ State.reset.key)) = true ∧
    nextIs (step { pending 0x0F 0 0 with key := keyL1 }) (fun t => decide (t.key ≠ keyL1)) = true ∧
    nextIs (step { hostDoes .reset with key := keyL1 }) (fun t => decide (t.key ≠ keyL1)) = true := by decide
theorem witness_schedule_changes :
    nextIs (step (pending 0x05 0 0)) (fun t => decide (t.w ≠ State.reset.w)) = true ∧
    nextIs (step (pending 0x0C 0 0)) (fun t => decide (t.w ≠ State.reset.w)) = true := by decide +kernel
theorem witness_result_changes :
    resultIs (step (pending 0x01 0 0)) 0x63 = true ∧ resultIs (step (pending 0x02 0 0)) 0x52 = true ∧
    resultIs (step (pending 0x03 1 0)) 0x01 = true ∧ resultIs (step (pending 0x04 1 0xA5)) 0xA5 = true ∧
    resultIs (step { pending 0x0F 0 0 with result := 1 }) 0 = true ∧
    resultIs (step { hostDoes .reset with result := 1 }) 0 = true := by decide
theorem witness_completes :
    Claim.Completes (pending 0x01 0x53 0) (.sbox 0x53) ∧ Claim.Completes (pending 0x02 0xED 0) (.invsbox 0xED) ∧
    Claim.Completes (pending 0x03 10 0) (.rcon 10) ∧ Claim.Completes (pending 0x04 0x57 0x83) (.gfmul 0x57 0x83) ∧
    Claim.Completes (pending 0x05 0 0) .expand ∧ Claim.Completes (pending 0x0C 10 0) (.addroundkey 10) ∧
    Claim.Completes (pending 0x0D 0 0) .encrypt ∧ Claim.Completes (pending 0x0E 0 0) .decrypt ∧
    Claim.Completes (pending 0x0F 0 0) .zeroize :=
  ⟨⟨rfl, rfl⟩, ⟨rfl, rfl⟩, ⟨rfl, rfl⟩, ⟨rfl, rfl⟩, ⟨rfl, rfl⟩, ⟨rfl, rfl⟩, ⟨rfl, rfl⟩, ⟨rfl, rfl⟩, ⟨rfl, rfl⟩⟩
theorem witness_kv_changes :
    nextIs (step (pending 0x05 0 0)) (fun t => t.kv) = true ∧
    nextIs (step { hostDoes (wr 0x010 0) with kv := true }) (fun t => !t.kv) = true := by decide
theorem witness_busy_changes :
    nextIs (step (hostDoes (wr 0x000 0))) (fun t => t.busy) = true ∧
    nextIs (step (pending 0x00 0 0)) (fun t => !t.busy) = true := by decide
/-- AcceptedCommandCompletes: a command is pending and the host polls. -/
theorem witness_accepted_command :
    ({ pending 0x0D 0 0 with host := [.poll] } : State).busy = true ∧
    ({ pending 0x0D 0 0 with host := [.poll] } : State).pendingCommand = .ok .encrypt ∧
    HostOp.reset ∉ ({ pending 0x0D 0 0 with host := [.poll] } : State).host := by decide

end Sys2Proof.Tests
end

/-! Proofs of the statements about the state elements of 10_state.md: ERR and ERRCODE (R29), STATUS (R30), RESULT (R25)
and BUSY (R27). First what a performed access and a completion do to these elements, said once; then each statement
from `step_cases`. -/

namespace Sys2Proof.Machine

/- ## Steps -/

/-- The step in which a pending command completes (R66). -/
theorem step_of_completes {s : State} {i : Instr} (h : Claim.Completes s i) :
    step s = .next (s.withData (dataAfter i s.data)).retire := by
  obtain ⟨hmoves, hpending⟩ := h
  simp [step, hmoves, engineStep_of_pending hpending]

/-- The step in which an access of the host reaches the port (R67). -/
theorem step_of_hostMoves {s : State} {op : HostOp} {rest : List HostOp} (h : s.HostMoves op rest) :
    step s = .next ((s.takeAccess op rest).perform op) := by
  obtain ⟨hidle, hnext⟩ := h
  simp [step, hidle, State.hostStep, hnext]

/-- The state after the completion of i, where the step is known to answer t. -/
theorem eq_of_completes {s t : State} {i : Instr} (hstep : step s = .next t) (h : Claim.Completes s i) :
    t = (s.withData (dataAfter i s.data)).retire := by
  rw [step_of_completes h] at hstep
  exact (Host.Outcome.next.inj hstep).symm

/-- The state after an access, where the step is known to answer t. -/
theorem eq_of_hostMoves {s t : State} {op : HostOp} {rest : List HostOp} (hstep : step s = .next t)
    (h : s.HostMoves op rest) : t = (s.takeAccess op rest).perform op := by
  rw [step_of_hostMoves h] at hstep
  exact (Host.Outcome.next.inj hstep).symm

/-- A step in which the engine moves completes a legal command. -/
theorem eq_of_engineMoves {s t : State} (hstep : step s = .next t) (h : s.engineMoves = true) :
    ∃ i, Claim.Completes s i ∧ t = (s.withData (dataAfter i s.data)).retire := by
  simp only [step, h, ↓reduceIte] at hstep
  obtain ⟨i, hpending, -, ht⟩ := engineStep_next hstep
  exact ⟨i, ⟨h, hpending⟩, ht⟩

/- ## Performed accesses -/

@[simp] theorem perform_reset (s : State) : s.perform .reset = s.resetBlock := rfl

/-- A 32-bit read of a register tells the host what `readReg` gives, and may use up a draw (R53, R63). -/
theorem perform_read_regOffset (s : State) (r : Reg) :
    s.perform (.read .word (regOffset r)) =
      Claim.told (.read .word (regOffset r)) .okay (some (readReg r s))
        (if s.busy && drawsWhenBusy r then s.countDraw else s) := by
  simp only [State.perform, State.afterRead, portRead, select_regOffset]
  rfl

/-- A 32-bit write of a register does what `writeReg` says (R53). -/
theorem perform_write_regOffset (s : State) (r : Reg) (v : Word) :
    s.perform (.write .word (regOffset r) v) =
      Claim.told (.write .word (regOffset r) v) (writeReg r v s).1 none (writeReg r v s).2 := by
  simp only [State.perform, portWrite, select_regOffset]
  rfl

/-- A read of STATUS tells the host the STATUS word, and does nothing else (R30, R64). -/
theorem perform_readStatus (s : State) :
    s.perform (.read .word 0x004) = Claim.told (.read .word 0x004) .okay (some s.statusWord) s := by
  have h := perform_read_regOffset s .status
  rwa [show drawsWhenBusy .status = false from rfl, Bool.and_false] at h

/-- A write of STATUS does what `writeStatus` says (R30). -/
theorem perform_writeStatus (s : State) (v : Word) :
    s.perform (.write .word 0x004 v) = Claim.told (.write .word 0x004 v) .okay none (s.writeStatus v) :=
  perform_write_regOffset s .status v

/-- A write of CMD does what `writeCmd` says (R57). -/
theorem perform_writeCmd (s : State) (v : Word) :
    s.perform (.write .word 0x000 v) = Claim.told (.write .word 0x000 v) .okay none (s.writeCmd v) :=
  perform_write_regOffset s .cmd v

/-- The CMD write of a legal command while BUSY = 0 is accepted (R57). -/
theorem writeCmd_of_check {s : State} {v : Word} {i : Instr} (hbusy : s.busy = false)
    (hcheck : commandCheck v = .ok i) : s.writeCmd v = s.accept (Pending.ofWord v) := by
  simp [State.writeCmd, hbusy, hcheck]

/- ## STATUS (R30) -/

/-- Bits 0, 1 and 2 of STATUS are the flags. -/
theorem getLsbD_statusWord_flags (s : State) :
    s.statusWord.getLsbD 0 = s.busy ∧ s.statusWord.getLsbD 1 = s.kv ∧ s.statusWord.getLsbD 2 = s.err := by
  simp [State.statusWord, flagWord]

/-- Bits 7:3 of STATUS are 0. -/
theorem getLsbD_statusWord_reserved (s : State) {i : Nat} (h3 : 3 ≤ i) (h7 : i ≤ 7) :
    s.statusWord.getLsbD i = false := by
  interval_cases i <;> simp [State.statusWord, flagWord]

/-- From bit 8 on, STATUS is ERRCODE, which has no bit from 4 on. -/
theorem getLsbD_statusWord_of_ge (s : State) {i : Nat} (h8 : 8 ≤ i) :
    s.statusWord.getLsbD i = s.errcode.getLsbD (i - 8) := by
  have hflags : i - 2 ≠ 0 ∧ i - 1 ≠ 0 ∧ i ≠ 0 := by omega
  by_cases h32 : i < 32
  · simp [State.statusWord, flagWord, hflags, h32, show ¬i < 8 by omega]
  · rw [BitVec.getLsbD_of_ge _ _ (by omega), BitVec.getLsbD_of_ge _ _ (by omega)]

/-- Settles O31: the reads and the write by the rules of the port, the layout bit by bit. -/
theorem statusRegister : Obligations.StatusRegister := by
  refine ⟨by decide, fun s => ⟨⟨s.statusWord, perform_readStatus s, ?_⟩, fun v => perform_writeStatus s v⟩⟩
  obtain ⟨hbusy, hkv, herr⟩ := getLsbD_statusWord_flags s
  refine ⟨hbusy, hkv, herr, fun i => getLsbD_statusWord_reserved s, fun i h8 _ => getLsbD_statusWord_of_ge s h8,
    fun i h12 => ?_⟩
  rw [getLsbD_statusWord_of_ge s (by omega)]
  exact BitVec.getLsbD_of_ge _ _ (by omega)

/- ## ERR and ERRCODE (R29) -/

/-- What clears ERR and ERRCODE: a STATUS write with bit 2 set, and reset. -/
def ClearsErr (op : HostOp) : Prop :=
  (∃ v, op = .write .word 0x004 v ∧ v.getLsbD 2 = true) ∨ op = .reset

theorem perform_of_clearsErr {op : HostOp} (h : ClearsErr op) (s : State) :
    (s.perform op).err = false ∧ (s.perform op).errcode = 0 := by
  obtain ⟨v, rfl, hv⟩ | rfl := h
  · rw [perform_writeStatus, State.writeStatus, if_pos hv]
    exact ⟨rfl, rfl⟩
  · simp

/-- An access that does not clear the error keeps ERR, and with ERR set keeps ERRCODE too. -/
theorem perform_of_not_clearsErr {op : HostOp} (h : ¬ClearsErr op) {s : State} (herr : s.err = true) :
    (s.perform op).err = true ∧ (s.perform op).errcode = s.errcode := by
  rcases perform_cases op s with ⟨x, hx | hx⟩ | ⟨size, off, v, t, x, hop, hw, hx⟩ | ⟨hop, -⟩
  · simp [hx, herr]
  · simp [hx, herr]
  · rw [hx]
    cases hw with
    | clear hsel hv =>
      obtain ⟨rfl, rfl⟩ := select_eq_some_iff.1 hsel
      exact absurd (.inl ⟨v, hop, hv⟩) h
    | _ => simp [herr]
  · exact absurd (.inr hop) h

/-- The access of a step clears the error, in the words of the statement. -/
theorem exists_hostMoves_clearsErr_iff {s : State} :
    (∃ op rest, s.HostMoves op rest ∧ ClearsErr op) ↔
      (∃ v rest, s.HostMoves (.write .word 0x004 v) rest ∧ v.getLsbD 2 = true) ∨ ∃ rest, s.HostMoves .reset rest := by
  constructor
  · rintro ⟨op, rest, hmoves, ⟨v, rfl, hv⟩ | rfl⟩
    · exact .inl ⟨v, rest, hmoves, hv⟩
    · exact .inr ⟨rest, hmoves⟩
  · rintro (⟨v, rest, hmoves, hv⟩ | ⟨rest, hmoves⟩)
    · exact ⟨_, rest, hmoves, .inl ⟨v, rfl, hv⟩⟩
    · exact ⟨_, rest, hmoves, .inr rfl⟩

/-- With ERR set, a step keeps ERR and ERRCODE or performs an access that clears both. -/
theorem step_of_err {s t : State} (hstep : step s = .next t) (herr : s.err = true) :
    (t.err = true ∧ t.errcode = s.errcode) ∨
      ((∃ op rest, s.HostMoves op rest ∧ ClearsErr op) ∧ t.err = false ∧ t.errcode = 0) := by
  rcases step_cases hstep with ⟨-, i, -, -, rfl⟩ | ⟨op, rest, hmoves, rfl⟩ | ⟨-, -, rfl⟩
  · exact .inl ⟨herr, rfl⟩
  · by_cases hop : ClearsErr op
    · exact .inr ⟨⟨op, rest, hmoves, hop⟩, perform_of_clearsErr hop _⟩
    · exact .inl (perform_of_not_clearsErr hop (s := s.takeAccess op rest) herr)
  · exact .inl ⟨herr, rfl⟩

/-- Settles O29, by the cases of a step with ERR set. -/
theorem firstErrorIsSticky : Obligations.FirstErrorIsSticky := by
  refine ⟨fun _ _ => rfl, ⟨rfl, rfl, rfl⟩, fun s t hstep => ?_⟩
  rw [← exists_hostMoves_clearsErr_iff]
  refine ⟨fun herr ht => ?_, fun herr ht => ?_, ?_, fun hmoves => ?_⟩
  · obtain ⟨-, hcode⟩ | ⟨-, hclear, -⟩ := step_of_err hstep herr
    · exact hcode
    · simp [ht] at hclear
  · obtain ⟨hkept, -⟩ | ⟨hop, -, hcode⟩ := step_of_err hstep herr
    · simp [ht] at hkept
    · exact ⟨hcode, hop⟩
  · rintro ⟨op, rest, hmoves, hop⟩
    rw [eq_of_hostMoves hstep hmoves]
    exact perform_of_clearsErr hop _
  · obtain ⟨i, -, rfl⟩ := eq_of_engineMoves hstep hmoves
    exact ⟨rfl, rfl⟩

/- ## RESULT (R25) -/

/-- No access but reset changes RESULT. -/
theorem perform_result_of_ne_reset {op : HostOp} (h : op ≠ .reset) (s : State) :
    (s.perform op).result = s.result := by
  rcases perform_cases op s with ⟨x, hx | hx⟩ | ⟨size, off, v, t, x, -, hw, hx⟩ | ⟨hop, -⟩
  · simp [hx]
  · simp [hx]
  · rw [hx]
    cases hw <;> rfl
  · exact absurd hop h

@[simp] theorem dataWithSchedule_result (f : Block → Schedule → Block) (d : Data) :
    (dataWithSchedule f d).result = d.result := by
  cases h : d.kv <;> simp [dataWithSchedule, h]

/-- The commands that write RESULT (R25, R171). -/
theorem writesResult_of_dataAfter_result_ne {i : Instr} {d : Data} (h : (dataAfter i d).result ≠ d.result) :
    (∃ x, i = .sbox x) ∨ (∃ y, i = .invsbox y) ∨ (∃ n, i = .rcon n) ∨ (∃ a b, i = .gfmul a b) ∨ i = .zeroize := by
  cases i with
  | sbox | invsbox | rcon | gfmul | zeroize => simp
  | _ => simp [dataAfter] at h

/-- RESULT after a completion. -/
theorem result_of_completes {s t : State} {i : Instr} (hstep : step s = .next t) (h : Claim.Completes s i) :
    t.result = (dataAfter i s.data).result := by
  rw [eq_of_completes hstep h]
  rfl

/-- A step that changes RESULT completes a command that writes it, or is a reset. -/
theorem step_result_ne {s t : State} (hstep : step s = .next t) (hne : t.result ≠ s.result) :
    (∃ i, Claim.Completes s i ∧ (dataAfter i s.data).result ≠ s.data.result) ∨ ∃ rest, s.HostMoves .reset rest := by
  rcases step_cases hstep with ⟨hmoves, i, hpending, -, rfl⟩ | ⟨op, rest, hmoves, rfl⟩ | ⟨-, -, rfl⟩
  · exact .inl ⟨i, ⟨hmoves, hpending⟩, hne⟩
  · by_cases hop : op = .reset
    · exact .inr ⟨rest, hop ▸ hmoves⟩
    · exact absurd (perform_result_of_ne_reset hop _) hne
  · exact absurd rfl hne

/-- Settles O48, by the cases of a step and of the commands' results. -/
theorem resultChangesOnlyByItsCommands : Obligations.ResultChangesOnlyByItsCommands := by
  intro s t hstep
  refine ⟨fun hne => ?_, ?_, fun x h => result_of_completes hstep h, fun y h => result_of_completes hstep h,
    fun n h => result_of_completes hstep h, fun a b h => result_of_completes hstep h⟩
  · obtain ⟨i, hi, hchanged⟩ | hreset := step_result_ne hstep hne
    · obtain ⟨x, rfl⟩ | ⟨y, rfl⟩ | ⟨n, rfl⟩ | ⟨a, b, rfl⟩ | rfl := writesResult_of_dataAfter_result_ne hchanged
      · exact .inl ⟨x, hi⟩
      · exact .inr (.inl ⟨y, hi⟩)
      · exact .inr (.inr (.inl ⟨n, hi⟩))
      · exact .inr (.inr (.inr (.inl ⟨a, b, hi⟩)))
      · exact .inr (.inr (.inr (.inr (.inl hi))))
    · exact .inr (.inr (.inr (.inr (.inr hreset))))
  · rintro (hzeroize | ⟨rest, hmoves⟩)
    · exact result_of_completes hstep hzeroize
    · rw [eq_of_hostMoves hstep hmoves]
      rfl

/- ## BUSY and PEND (R27, R28) -/

/-- What an access does to BUSY and PEND: a reset clears them, the CMD write of a legal command while BUSY = 0 sets
them, and every other access keeps them. -/
theorem perform_busy_pend_cases (op : HostOp) (s : State) :
    ((s.perform op).busy = s.busy ∧ (s.perform op).pend = s.pend) ∨
    (op = .reset ∧ (s.perform op).busy = false ∧ (s.perform op).pend = none) ∨
    (∃ v i, op = .write .word 0x000 v ∧ commandCheck v = .ok i ∧ s.busy = false ∧
      (s.perform op).busy = true ∧ (s.perform op).pend = some (Pending.ofWord v)) := by
  rcases perform_cases op s with ⟨x, hx | hx⟩ | ⟨size, off, v, t, x, hop, hw, hx⟩ | ⟨hop, hx⟩
  · exact .inl (by simp [hx])
  · exact .inl (by simp [hx])
  · rw [hx]
    cases hw with
    | accepted hsel hbusy hcheck =>
      obtain ⟨rfl, rfl⟩ := select_eq_some_iff.1 hsel
      exact .inr (.inr ⟨v, _, hop, hcheck, hbusy, rfl, rfl⟩)
    | _ => exact .inl (by simp)
  · exact .inr (.inl ⟨hop, by simp [hx]⟩)

/-- What a step does to BUSY and PEND: a completion and a reset clear them, the CMD write of a legal command while
BUSY = 0 sets them, and every other step keeps them. -/
theorem step_busy_pend_cases {s t : State} (hstep : step s = .next t) :
    (t.busy = s.busy ∧ t.pend = s.pend) ∨
    ((s.engineMoves = true ∨ ∃ rest, s.HostMoves .reset rest) ∧ t.busy = false ∧ t.pend = none) ∨
    (∃ v rest i, s.HostMoves (.write .word 0x000 v) rest ∧ commandCheck v = .ok i ∧ s.busy = false ∧
      t.busy = true ∧ t.pend = some (Pending.ofWord v)) := by
  rcases step_cases hstep with ⟨hmoves, i, -, -, rfl⟩ | ⟨op, rest, hmoves, rfl⟩ | ⟨-, -, rfl⟩
  · exact .inr (.inl ⟨.inl hmoves, rfl, rfl⟩)
  · obtain hkept | ⟨rfl, hcleared⟩ | ⟨v, i, rfl, hcheck, hset⟩ := perform_busy_pend_cases op (s.takeAccess op rest)
    · exact .inl hkept
    · exact .inr (.inl ⟨.inr ⟨rest, hmoves⟩, hcleared⟩)
    · exact .inr (.inr ⟨v, rest, i, hmoves, hcheck, hset⟩)
  · exact .inl ⟨rfl, rfl⟩

/-- A completion and a reset clear BUSY and PEND (R27, R66, R210). -/
theorem busy_pend_of_completion_or_reset {s t : State} (hstep : step s = .next t)
    (h : s.engineMoves = true ∨ ∃ rest, s.HostMoves .reset rest) : t.busy = false ∧ t.pend = none := by
  obtain hmoves | ⟨rest, hmoves⟩ := h
  · obtain ⟨i, -, rfl⟩ := eq_of_engineMoves hstep hmoves
    exact ⟨rfl, rfl⟩
  · rw [eq_of_hostMoves hstep hmoves]
    exact ⟨rfl, rfl⟩

/-- The CMD write of a legal command while BUSY = 0 sets BUSY and PEND (R27, R57). -/
theorem busy_pend_of_accepted {s t : State} {v : Word} {rest : List HostOp} {i : Instr} (hstep : step s = .next t)
    (hbusy : s.busy = false) (hmoves : s.HostMoves (.write .word 0x000 v) rest) (hcheck : commandCheck v = .ok i) :
    t.busy = true ∧ t.pend = some (Pending.ofWord v) := by
  rw [eq_of_hostMoves hstep hmoves, perform_writeCmd,
    writeCmd_of_check (s := s.takeAccess _ rest) hbusy hcheck]
  exact ⟨rfl, rfl⟩

/-- Every step keeps that BUSY = 1 exactly while a command is in PEND (R28). -/
theorem step_keeps_busyIffPending {s t : State} (hstep : step s = .next t) (h : s.BusyIffPending) :
    t.BusyIffPending := by
  obtain ⟨hbusy, hpend⟩ | ⟨-, hbusy, hpend⟩ | ⟨v, rest, i, -, -, -, hbusy, hpend⟩ := step_busy_pend_cases hstep
  · simpa only [State.BusyIffPending, hbusy, hpend] using h
  · simp [State.BusyIffPending, hbusy, hpend]
  · simp [State.BusyIffPending, hbusy, hpend]

/-- Settles O50, by the cases of a step on BUSY and PEND. -/
theorem busyFlag : Obligations.BusyFlag := by
  intro s t hstep
  refine ⟨fun hs ht => ?_, fun hs v rest i => busy_pend_of_accepted hstep hs, fun hs ht => ?_,
    busy_pend_of_completion_or_reset hstep, step_keeps_busyIffPending hstep⟩
  · obtain ⟨hbusy, -⟩ | ⟨-, hbusy, -⟩ | ⟨v, rest, i, hmoves, hcheck, -, -, hpend⟩ := step_busy_pend_cases hstep
    · simp [hs, ht] at hbusy
    · simp [ht] at hbusy
    · exact ⟨v, rest, i, hmoves, hcheck, hpend⟩
  · obtain ⟨hbusy, -⟩ | ⟨hcleared, -⟩ | ⟨v, rest, i, -, -, -, hbusy, -⟩ := step_busy_pend_cases hstep
    · simp [hs, ht] at hbusy
    · exact hcleared
    · simp [ht] at hbusy

end Sys2Proof.Machine

/-! Proofs of the statements about the register port of 20_memory.md: the rejected accesses (R53 to R55), the reads of
the write-only registers (R56), and the writes of CMD (R57), KEY (R58) and STATE (R59). Each from the rules
of the port, after the facts it needs: where the registers lie, how the checks at issue read in numbers, and the bytes
of a block. -/

namespace Sys2Proof.Machine

/- ## Where the registers lie (R51) -/

/-- Every register lies word-aligned outside the unmapped ranges (R51, R54). -/
theorem regOffset_mapped (r : Reg) :
    (regOffset r).toNat % 4 = 0 ∧ ((regOffset r).toNat ≤ 0x008 ∨
      (0x010 ≤ (regOffset r).toNat ∧ (regOffset r).toNat < 0x030) ∨
      (0x100 ≤ (regOffset r).toNat ∧ (regOffset r).toNat < 0x1B0)) := by
  cases r <;> simp [regOffset] <;> omega

/-- The registers at RESULT's offset and from RK0's on are RESULT and RK (R51). -/
theorem eq_result_or_rk_of_regOffset {r : Reg} (h : regOffset r = 0x008 ∨ 0x100 ≤ (regOffset r).toNat) :
    r = .result ∨ ∃ i, r = .rk i := by
  rw [BitVec.toNat_eq] at h
  cases r with
  | result => exact .inl rfl
  | rk i => exact .inr ⟨i, rfl⟩
  | _ => simp [regOffset] at h <;> omega

/- ## Rejected accesses (R53 to R55) -/

/-- The accesses that reach no register: too narrow, misaligned or unmapped (R53, R54). -/
theorem select_eq_none {size : Size} {off : Offset} (h : size ≠ .word ∨ off.toNat % 4 ≠ 0 ∨ off = 0x00C ∨
    (0x030 ≤ off.toNat ∧ off.toNat ≤ 0x0FF) ∨ 0x1B0 ≤ off.toNat) : select size off = none := by
  rw [Option.eq_none_iff_forall_ne_some]
  intro r hr
  obtain ⟨rfl, rfl⟩ := select_eq_some_iff.1 hr
  have hmapped := regOffset_mapped r
  obtain hsize | halign | hgap | hunmapped := h
  · exact hsize rfl
  · exact halign hmapped.1
  · simp [hgap] at hmapped
  · omega

/-- A read that reaches no register gets ERROR and 0, and does nothing (R54). -/
theorem perform_read_of_select_none {size : Size} {off : Offset} (h : select size off = none) (s : State) :
    s.perform (.read size off) = Claim.told (.read size off) .error (some 0) s := by
  simp only [State.perform, State.afterRead, portRead, h]
  rfl

/-- A write that reaches no register gets ERROR and does nothing (R54). -/
theorem perform_write_of_select_none {size : Size} {off : Offset} (h : select size off = none) (s : State) (v : Word) :
    s.perform (.write size off v) = Claim.told (.write size off v) .error none s := by
  simp only [State.perform, portWrite, h]
  rfl

/-- Settles O32: an access that reaches no register is rejected, and a write that reaches RESULT or RK too. -/
theorem rejectedAccesses : Obligations.RejectedAccesses := by
  intro s size off v
  refine ⟨fun h => ?_, fun h => ?_⟩
  · have hnone := select_eq_none h
    exact ⟨perform_read_of_select_none hnone s, perform_write_of_select_none hnone s v⟩
  · cases hsel : select size off with
    | none => exact perform_write_of_select_none hsel s v
    | some r =>
      obtain ⟨rfl, rfl⟩ := select_eq_some_iff.1 hsel
      obtain rfl | ⟨i, rfl⟩ := eq_result_or_rk_of_regOffset (h.imp_right And.left)
      · exact perform_write_regOffset s .result v
      · exact perform_write_regOffset s (.rk i) v

/- ## Reads of the write-only registers (R56) -/

/-- A read of a register that never draws tells the host what `readReg` gives, and does nothing (R56, R64). -/
theorem perform_read_of_not_draws {r : Reg} (h : drawsWhenBusy r = false) (s : State) :
    s.perform (.read .word (regOffset r)) =
      Claim.told (.read .word (regOffset r)) .okay (some (readReg r s)) s := by
  simp [perform_read_regOffset, h]

/-- Settles O33, by the rule of a read at each of the two kinds of register. -/
theorem writeOnlyRegistersReadZero : Obligations.WriteOnlyRegistersReadZero := by
  rintro s off (rfl | ⟨j, rfl⟩)
  · exact perform_read_of_not_draws (r := .cmd) rfl s
  · exact perform_read_of_not_draws (r := .key j) rfl s

/- ## The checks at issue in numbers (R80, R82 to R84) -/

theorem toNat_opField (v : Word) : (opField v).toNat = Claim.op v := by
  simp [opField, Claim.op]

theorem toNat_aField (v : Word) : (aField v).toNat = Claim.a v := by
  simp [aField, Claim.a, Nat.shiftRight_eq_div_pow]

theorem toNat_bField (v : Word) : (bField v).toNat = Claim.b v := by
  simp [bField, Claim.b, Nat.shiftRight_eq_div_pow]

theorem toNat_zField (v : Word) : (zField v).toNat = Claim.z v := by
  simp [zField, Claim.z, Nat.shiftRight_eq_div_pow]; omega

theorem aField_eq_zero_iff (v : Word) : aField v = 0 ↔ Claim.a v = 0 := by
  rw [BitVec.toNat_eq, toNat_aField]; rfl

theorem bField_eq_zero_iff (v : Word) : bField v = 0 ↔ Claim.b v = 0 := by
  rw [BitVec.toNat_eq, toNat_bField]; rfl

theorem zField_eq_zero_iff (v : Word) : zField v = 0 ↔ Claim.z v = 0 := by
  rw [BitVec.toNat_eq, toNat_zField]; rfl

theorem usesNone_eq_ok_iff {v : Word} {i k : Instr} :
    usesNone (aField v) (bField v) i = .ok k ↔ (Claim.a v = 0 ∧ Claim.b v = 0) ∧ i = k := by
  rw [← aField_eq_zero_iff, ← bField_eq_zero_iff, usesNone]
  split_ifs with h <;> simp only [h, Except.ok.injEq, true_and, false_and, and_self]

theorem usesOnlyA_eq_ok_iff {v : Word} {i k : Instr} :
    usesOnlyA (bField v) i = .ok k ↔ Claim.b v = 0 ∧ i = k := by
  rw [← bField_eq_zero_iff, usesOnlyA]
  split_ifs with h <;> simp only [h, Except.ok.injEq, true_and, false_and]

/-- The words that decode are those that R82 and R83 do not refuse. -/
theorem exists_decode_eq_ok_iff (v : Word) : (∃ i, decode v = .ok i) ↔ ¬Claim.Illegal v := by
  simp only [decode, ne_eq, zField_eq_zero_iff, toNat_opField, ite_not, Claim.Illegal]
  split_ifs with hz
  · split <;> rename_i hop
    case h_17 =>
      have hreserved : 0x10 ≤ Claim.op v := by
        simp only [imp_false] at *
        omega
      simp [hreserved]
    all_goals simp [hop, hz, usesNone_eq_ok_iff, usesOnlyA_eq_ok_iff]
  · simp [hz]

/-- The operand range of a word that decodes is the one of its opcode (R84). -/
theorem wellFormed_iff_of_decode {v : Word} {i : Instr} (h : decode v = .ok i) :
    i.wellFormed = true ↔ ¬Claim.OutOfRange v := by
  simp only [decode, ne_eq, zField_eq_zero_iff, toNat_opField, ite_not] at h
  split_ifs at h
  split at h <;> rename_i hop
  all_goals simp only [usesNone_eq_ok_iff, usesOnlyA_eq_ok_iff, reduceCtorEq, Except.ok.injEq] at h
  case h_5 =>
    obtain rfl := h
    simp [Instr.wellFormed, Claim.OutOfRange, hop]
  all_goals
    obtain ⟨-, rfl⟩ := h
    simp [Instr.wellFormed, Claim.OutOfRange, hop, toNat_aField]

/-- A word that R82 or R83 refuses raises ILLEGAL_CMD. -/
theorem commandCheck_of_illegal {v : Word} (h : Claim.Illegal v) : commandCheck v = .error .illegalCmd := by
  cases hdecode : decode v with
  | error e => simp [commandCheck, hdecode]
  | ok i => exact absurd h ((exists_decode_eq_ok_iff v).1 ⟨i, hdecode⟩)

/-- A word that R82 and R83 let through raises BAD_OPERAND if its operand is out of range, and is accepted if not. -/
theorem commandCheck_of_not_illegal {v : Word} (h : ¬Claim.Illegal v) :
    (Claim.OutOfRange v → commandCheck v = .error .badOperand) ∧
      (¬Claim.OutOfRange v → ∃ i, commandCheck v = .ok i) := by
  obtain ⟨i, hdecode⟩ := (exists_decode_eq_ok_iff v).2 h
  have hrange := wellFormed_iff_of_decode hdecode
  constructor
  · intro hout
    simp [commandCheck, hdecode, hrange, hout]
  · intro hin
    exact ⟨i, by simp [commandCheck, hdecode, hrange, hin]⟩

/-- The bytes that a CMD write puts in PEND, as numbers (R57, R80). -/
theorem ofWord_eq (v : Word) : Pending.ofWord v =
    { op := BitVec.ofNat 8 (Claim.op v), a := BitVec.ofNat 8 (Claim.a v), b := BitVec.ofNat 8 (Claim.b v) } := by
  simp [Pending.ofWord, ← toNat_opField, ← toNat_aField, ← toNat_bField]

/- ## Writes of CMD (R57) -/

/-- A CMD write while BUSY = 1 raises BUSY_WRITE. -/
theorem writeCmd_of_busy {s : State} (h : s.busy = true) (v : Word) : s.writeCmd v = s.raise .busyWrite := by
  simp [State.writeCmd, h]

/-- A CMD write of a refused command while BUSY = 0 raises the error of the check that fails. -/
theorem writeCmd_of_check_error {s : State} {v : Word} {e : CmdError} (hbusy : s.busy = false)
    (hcheck : commandCheck v = .error e) : s.writeCmd v = s.raise e := by
  simp [State.writeCmd, hbusy, hcheck]

/-- Settles O34, by the outcomes of the checks at issue. -/
theorem cmdWrite : Obligations.CmdWrite := by
  intro s v
  refine ⟨s.writeCmd v, perform_writeCmd s v, fun hbusy => writeCmd_of_busy hbusy v,
    fun hbusy hill => writeCmd_of_check_error hbusy (commandCheck_of_illegal hill),
    fun hbusy hlegal hout => writeCmd_of_check_error hbusy ((commandCheck_of_not_illegal hlegal).1 hout),
    fun hbusy hlegal hin => ?_⟩
  obtain ⟨i, hcheck⟩ := (commandCheck_of_not_illegal hlegal).2 hin
  rw [writeCmd_of_check hbusy hcheck, ← ofWord_eq]
  rfl

/- ## Writes of KEY and STATE (R58, R59) -/

/-- Byte j of a word is its bits from 24 - 8j on (R12). -/
theorem byteOf_eq_byte (v : Word) (j : Fin 4) : byteOf v j = Claim.byte v j := rfl

/-- The bytes of a block after word j is written: the word's bytes at 4j to 4j + 3, the others as before (R52). -/
theorem getElem_setBlockWord (S : Block) (j : Fin 4) (v : Word) (c k : Fin 4) :
    (setBlockWord S j v)[4 * c.val + k.val] = if c = j then Claim.byte v k else S[4 * c.val + k.val] := by
  simpa only [cell, Nat.add_comm k.val, byteOf_eq_byte] using cell_setBlockWord S j v k c

/-- Settles O35, by the bytes of the written block. -/
theorem keyWrite : Obligations.KeyWrite := by
  intro s j v
  refine ⟨s.writeKey j v, perform_write_regOffset s (.key j) v, fun hbusy => ?_, fun hbusy => ?_⟩
  · rw [State.writeKey, if_pos hbusy]
    rfl
  · have hwrite : s.writeKey j v = s.setKey (setBlockWord s.key j v) := by simp [State.writeKey, hbusy]
    rw [hwrite]
    exact ⟨rfl, getElem_setBlockWord s.key j v⟩

/-- Settles O36, by the bytes of the written block. -/
theorem stateWrite : Obligations.StateWrite := by
  intro s j v
  refine ⟨s.writeState j v, perform_write_regOffset s (.state j) v, fun hbusy => ?_, fun hbusy => ?_⟩
  · rw [State.writeState, if_pos hbusy]
    rfl
  · have hwrite : s.writeState j v = s.setSt (setBlockWord s.st j v) := by simp [State.writeState, hbusy]
    rw [hwrite]
    exact ⟨rfl, getElem_setBlockWord s.st j v⟩

end Sys2Proof.Machine

/-! Proof of the statement about the lookup ROMs of 40_rom_lookup.md: the two tables are inverse bijections of the bytes
(R103), and so SBOX and INVSBOX undo each other. -/

namespace Sys2Proof.Machine

/- ## The two ROMs (R103) -/

/-- R103, read off the two printed tables entry by entry. -/
@[simp] theorem invSboxRom_sboxRom (x : Byte) : invSboxRom (sboxRom x) = x := by
  revert x
  decide

/-- SBOX gives no byte twice, so it gives all 256, and INVSBOX undoes it on either side. -/
@[simp] theorem sboxRom_invSboxRom (y : Byte) : sboxRom (invSboxRom y) = y := by
  have hleft : Function.LeftInverse invSboxRom sboxRom := invSboxRom_sboxRom
  have hsurj : Function.Surjective sboxRom := Finite.surjective_of_injective hleft.injective
  exact hleft.rightInverse_of_surjective hsurj y

/- ## The two commands (R104, R105) -/

@[simp] theorem exec_sbox (x : Byte) (s : State) : exec (.sbox x) s = .next (s.setResult (sboxRom x)) := rfl

@[simp] theorem exec_invsbox (y : Byte) (s : State) : exec (.invsbox y) s = .next (s.setResult (invSboxRom y)) := rfl

/-- Of two writes of RESULT the second stays. -/
@[simp] theorem State.setResult_setResult (v w : Byte) (s : State) : (s.setResult v).setResult w = s.setResult w := rfl

/-- Settles O8: the second lookup undoes the first, and its write of RESULT replaces the first one's. -/
theorem lookupsAreMutuallyInverse : Obligations.LookupsAreMutuallyInverse := by
  intro s x
  refine ⟨⟨s.setResult (sboxRom x), exec_sbox x s, ?_⟩, ⟨s.setResult (invSboxRom x), exec_invsbox x s, ?_⟩⟩
  · rw [exec_invsbox, State.setResult_setResult, State.setResult_result, invSboxRom_sboxRom]
    rfl
  · rw [exec_sbox, State.setResult_setResult, State.setResult_result, sboxRom_invSboxRom]
    rfl

end Sys2Proof.Machine

/-! Proof of the statement about GFMUL of 41_gf_arith.md: the product is the polynomial product reduced modulo 0x11B
(R120). After k rounds the loop holds, for `a` shifted by k and for the sum of the shifts that `b` selects, the
remainder modulo 0x11B. A remainder is kept together with its quotient, since the statement asks for that too. -/

namespace Sys2Proof.Machine

/- ## The carry-less product -/

/-- The summand of `Claim.polyMul x y` for bit k of y. -/
def polyTerm (x y : BitVec 16) (k : Nat) : BitVec 16 := if y.getLsbD k then x <<< k else 0

theorem polyTerm_xor (x y z : BitVec 16) (k : Nat) : polyTerm x (y ^^^ z) k = polyTerm x y k ^^^ polyTerm x z k := by
  cases hy : y.getLsbD k <;> cases hz : z.getLsbD k <;> simp [polyTerm, hy, hz]

theorem polyTerm_shiftLeft_one_zero (x y : BitVec 16) : polyTerm x (y <<< 1) 0 = 0 := by
  simp [polyTerm]

theorem polyTerm_shiftLeft_one_succ (x y : BitVec 16) {k : Nat} (h : k < 15) :
    polyTerm x (y <<< 1) (k + 1) = polyTerm x y k <<< 1 := by
  cases hy : y.getLsbD k <;> simp [polyTerm, hy, h, BitVec.shiftLeft_add]

/-- One step of the product adds one summand. -/
theorem ite_xor_shiftLeft_eq (x y acc : BitVec 16) (k : Nat) :
    (if y.getLsbD k then acc ^^^ (x <<< k) else acc) = acc ^^^ polyTerm x y k := by
  cases hy : y.getLsbD k <;> simp [polyTerm, hy]

/-- The product is the sum of its eight summands. -/
theorem polyMul_eq_xor_polyTerm (x y : BitVec 16) :
    Claim.polyMul x y = polyTerm x y 0 ^^^ polyTerm x y 1 ^^^ polyTerm x y 2 ^^^ polyTerm x y 3 ^^^ polyTerm x y 4 ^^^
      polyTerm x y 5 ^^^ polyTerm x y 6 ^^^ polyTerm x y 7 := by
  simp only [Claim.polyMul, ite_xor_shiftLeft_eq]
  simp [List.range_succ]

/-- The product distributes over the sum. -/
theorem polyMul_xor (x y z : BitVec 16) : Claim.polyMul x (y ^^^ z) = Claim.polyMul x y ^^^ Claim.polyMul x z := by
  simp only [polyMul_eq_xor_polyTerm, polyTerm_xor]
  ac_rfl

/-- A factor of degree below 7 may be shifted before or after the product. -/
theorem polyMul_shiftLeft_one (x : BitVec 16) {y : BitVec 16} (h : y.toNat < 2 ^ 7) :
    Claim.polyMul x (y <<< 1) = Claim.polyMul x y <<< 1 := by
  have htop : polyTerm x y 7 = 0 := by simp [polyTerm, BitVec.getLsbD, Nat.testBit_lt_two_pow h]
  simp [polyMul_eq_xor_polyTerm, polyTerm_shiftLeft_one_zero, polyTerm_shiftLeft_one_succ, htop,
    BitVec.shiftLeft_xor_distrib]

/- ## Remainders modulo 0x11B -/

/-- v is the remainder of x modulo 0x11B, with a quotient of degree below k. -/
def ReducesTo (k : Nat) (x : BitVec 16) (v : Byte) : Prop :=
  ∃ q : BitVec 16, q.toNat < 2 ^ k ∧ x = Claim.polyMul 0x11B q ^^^ v.setWidth 16

theorem ReducesTo.refl (k : Nat) (v : Byte) : ReducesTo k (v.setWidth 16) v :=
  ⟨0, Nat.two_pow_pos k, BitVec.zero_xor.symm⟩

theorem ReducesTo.mono {j k : Nat} {x : BitVec 16} {v : Byte} (h : ReducesTo j x v) (hjk : j ≤ k) :
    ReducesTo k x v := by
  obtain ⟨q, hq, hx⟩ := h
  exact ⟨q, hq.trans_le (Nat.pow_le_pow_right two_pos hjk), hx⟩

/-- Remainders add, and so do their quotients. -/
theorem ReducesTo.xor {k : Nat} {x y : BitVec 16} {v w : Byte} (hx : ReducesTo k x v) (hy : ReducesTo k y w) :
    ReducesTo k (x ^^^ y) (v ^^^ w) := by
  obtain ⟨q, hq, rfl⟩ := hx
  obtain ⟨r, hr, rfl⟩ := hy
  refine ⟨q ^^^ r, by simpa using Nat.xor_lt_two_pow hq hr, ?_⟩
  rw [polyMul_xor, BitVec.setWidth_xor]
  ac_rfl

/-- A byte shifted left reduces to `gfShift` of it: the quotient is the bit shifted out. -/
theorem reducesTo_gfShift (v : Byte) : ReducesTo 1 (v.setWidth 16 <<< 1) (gfShift v) := by
  have hquotient : ∀ v : Byte,
      v.setWidth 16 <<< 1 = Claim.polyMul 0x11B (if v.getLsbD 7 then 1 else 0) ^^^ (gfShift v).setWidth 16 := by
    decide
  exact ⟨_, by split <;> decide, hquotient v⟩

/-- The remainder of the shifted polynomial: the quotient is shifted, and the shifted remainder reduced. -/
theorem ReducesTo.shiftLeft_one {k : Nat} {x : BitVec 16} {v : Byte} (h : ReducesTo k x v) (hk : k ≤ 7) :
    ReducesTo (k + 1) (x <<< 1) (gfShift v) := by
  obtain ⟨q, hq, rfl⟩ := h
  have hmultiple : ReducesTo (k + 1) (Claim.polyMul 0x11B q <<< 1) 0 := by
    refine ⟨q <<< 1, ?_, ?_⟩
    · rw [BitVec.toNat_shiftLeft, Nat.shiftLeft_eq]
      exact (Nat.mod_le _ _).trans_lt (by omega)
    · rw [polyMul_shiftLeft_one _ (hq.trans_le (Nat.pow_le_pow_right two_pos hk))]
      simp
  simpa [BitVec.shiftLeft_xor_distrib] using hmultiple.xor ((reducesTo_gfShift v).mono (by omega))

/- ## The loop (R120) -/

/-- The loop's last n rounds, from round k on: it keeps the remainder of a shifted by k and of the sum so far. -/
theorem reducesTo_gfLoop (x : BitVec 16) (b : Byte) {n k : Nat} {acc : BitVec 16} {a p : Byte} (hn : k + n = 8)
    (ha : ReducesTo k (x <<< k) a) (hp : ReducesTo 7 acc p) :
    ReducesTo 7
      ((List.range' k n).foldl
        (fun acc j => if (b.setWidth 16).getLsbD j then acc ^^^ (x <<< j) else acc) acc)
      (gfLoop n a (b >>> k) p) := by
  induction n generalizing k acc a p with
  | zero => exact hp
  | succ n ih =>
    have hbit : (b >>> k).getLsbD 0 = (b.setWidth 16).getLsbD k := by
      simp [show k < 16 by omega]
    rw [List.range'_succ, List.foldl_cons, gfLoop, hbit, ← BitVec.shiftRight_add]
    refine ih (by omega) ?_ ?_
    · rw [BitVec.shiftLeft_add]
      exact ha.shiftLeft_one (by omega)
    · split
      · exact hp.xor (ha.mono (by omega))
      · exact hp

/-- R120: gfmul is the remainder of the product, with a quotient of degree below 7. -/
theorem reducesTo_gfmul (a b : Byte) :
    ReducesTo 7 (Claim.polyMul (a.setWidth 16) (b.setWidth 16)) (gfmul a b) := by
  rw [Claim.polyMul, List.range_eq_range']
  have hshifted : ReducesTo 0 (a.setWidth 16 <<< 0) a := by simpa using .refl 0 a
  exact reducesTo_gfLoop (a.setWidth 16) b rfl hshifted (.refl 7 0)

/-- Settles O10, by the remainder that the loop keeps. -/
theorem gfmulIsProductModulo11B : Obligations.GfmulIsProductModulo11B := by
  intro s a b
  obtain ⟨q, hq, hproduct⟩ := reducesTo_gfmul a b
  have hwidth : (q.setWidth 8).setWidth 16 = q := by
    apply BitVec.eq_of_toNat_eq
    rw [BitVec.toNat_setWidth, BitVec.toNat_setWidth]
    omega
  exact ⟨gfmul a b, q.setWidth 8, rfl, by rw [hwidth, hproduct], (Nat.mod_le _ _).trans_lt hq⟩

end Sys2Proof.Machine

/-! Proof of the statement about EXPAND of 42_key_schedule.md. The model grows the list of words newest first, so its
words keep their distance from the end of the list; from that follow the words of expand(K) in R130's own numbering, and
then the bytes of each. -/

namespace Sys2Proof.Machine

/- ## The words of expand(K) (R130) -/

/-- The words made in n further rounds stand before the words made so far, which stay as they are. -/
theorem scheduleWords_getD_add (K : Block) (m n j : Nat) :
    (scheduleWords K (m + n)).getD (n + j) 0 = (scheduleWords K m).getD j 0 := by
  induction n with
  | zero => simp
  | succ n ih =>
    rw [← ih, Nat.add_right_comm]
    rfl

/-- Word w[i] is read off the list of any round that has made it: j words before the end there, it stays that word. -/
theorem getElem_expand (K : Block) {i j m : Nat} (hm : m ≤ 40) (hij : i + j = m + 3) :
    (expand K)[i] = (scheduleWords K m).getD j 0 := by
  have hfull : (scheduleWords K 40).getD (43 - i) 0 = (scheduleWords K m).getD j 0 := by
    have h := scheduleWords_getD_add K m (40 - m) j
    rwa [show m + (40 - m) = 40 by omega, show 40 - m + j = 43 - i by omega] at h
  simpa [expand] using hfull

/-- R130: w[0] to w[3] are the words of the key. -/
theorem getElem_expand_key (K : Block) (c : Fin 4) : (expand K)[c.val] = blockWord K c := by
  rw [getElem_expand K (j := 3 - c.val) (Nat.zero_le 40) (by omega)]
  fin_cases c <;> rfl

/-- R130: the recurrence, from w[4] on. -/
theorem getElem_expand_eq_nextWord (K : Block) {i : Nat} (h4 : 4 ≤ i) (h44 : i < 44) :
    (expand K)[i] = nextWord i (expand K)[i - 1] (expand K)[i - 4] := by
  obtain ⟨n, rfl⟩ := Nat.exists_eq_add_of_le' h4
  rw [getElem_expand K (j := 0) (m := n + 1) (by omega) (by omega),
    getElem_expand K (i := n + 4 - 1) (j := 0) (m := n) (by omega) (by omega),
    getElem_expand K (i := n + 4 - 4) (j := 3) (m := n) (by omega) (by omega)]
  rfl

/- ## The bytes of one word of the recurrence (R130) -/

/-- Byte j of word c of a block is the byte in row j and column c (R13, R52). -/
theorem byteOf_blockWord (S : Block) (c j : Fin 4) : byteOf (blockWord S c) j = cell S j c := by
  rw [blockWord, byteOf_wordOf]
  fin_cases j <;> rfl

/-- Rotation, then substitution: byte j is the substituted byte j + 1, modulo 4. -/
theorem byteOf_subWord_rotWord (t : Word) (j : Fin 4) :
    byteOf (subWord (rotWord t)) j = sboxRom (byteOf t (j + 1)) := by
  fin_cases j <;> simp [subWord, rotWord, byteOf_wordOf]

/-- At a multiple of 4 the round constant comes into byte 0 alone, after the rotation and the substitution. -/
theorem byteOf_nextWord_of_mod_eq_zero {i : Nat} (h : i % 4 = 0) (previous fourBack : Word) (j : Fin 4) :
    byteOf (nextWord i previous fourBack) j =
      sboxRom (byteOf previous (j + 1)) ^^^ (if j = 0 then rconRom (Fin.ofNat 11 (i / 4)) else 0) ^^^
        byteOf fourBack j := by
  rw [nextWord, if_pos h, byteOf_xor, byteOf_xor, byteOf_subWord_rotWord, byteOf_wordOf]
  fin_cases j <;> rfl

theorem nextWord_of_mod_ne_zero {i : Nat} (h : i % 4 ≠ 0) (previous fourBack : Word) :
    nextWord i previous fourBack = previous ^^^ fourBack := by
  rw [nextWord, if_neg h]

/- ## The commands (R131, R106) -/

@[simp] theorem exec_expand (s : State) : exec .expand s = .next { s with w := expand s.key, kv := true } := rfl

/-- What RCON n leaves in RESULT for n in 1..10, a number of the recurrence. -/
theorem eq_rconRom_of_exec_rcon {s : State} {n : Nat} {rc : Byte} (h1 : 1 ≤ n) (h10 : n ≤ 10)
    (h : exec (.rcon (BitVec.ofNat 8 n)) s = .next { s with result := rc }) : rc = rconRom (Fin.ofNat 11 n) := by
  have hn : (BitVec.ofNat 8 n).toNat = n := by
    rw [BitVec.toNat_ofNat]
    omega
  have hwf : (Instr.rcon (BitVec.ofNat 8 n)).wellFormed = true := by simp [Instr.wellFormed, hn, h1, h10]
  rw [exec_of_wellFormed hwf] at h
  have hresult : rconRom (index11 (BitVec.ofNat 8 n)) = rc := congrArg State.result (Host.Outcome.next.inj h)
  rw [← hresult, index11, hn]

/-- Settles O12, by the recurrence of `expand` and the bytes of its words. -/
theorem expandRecurrence : Obligations.ExpandRecurrence := by
  intro s
  refine ⟨expand s.key, exec_expand s, fun i hi j => ?_, fun i h4 h44 hmod => ?_, fun i h4 h44 hmod rc hrc => ?_⟩
  · rw [getElem_expand_key s.key ⟨i, hi⟩, ← byteOf_eq_byte, byteOf_blockWord]
    simp only [cell, Nat.add_comm]
  · rw [getElem_expand_eq_nextWord s.key h4 h44, nextWord_of_mod_ne_zero hmod]
  · obtain rfl := eq_rconRom_of_exec_rcon (by omega) (by omega) hrc
    simp only [← byteOf_eq_byte]
    rw [getElem_expand_eq_nextWord s.key h4 h44]
    simp [byteOf_nextWord_of_mod_eq_zero hmod]

end Sys2Proof.Machine

/-! Proof of the statement about MIXCOLUMNS of 43_round_primitives.md. The matrix product is known cell by cell
(`cell_mixWith`); here it is read in the numbering of R13, where byte r of column c is byte 4c + r of the block, and its
four rows are then those R146 prints. -/

namespace Sys2Proof.Machine

/-- R13: byte r of column c of a block is the byte in row r and column c. -/
theorem getElem_eq_cell (S : Block) (r c : Fin 4) : S[4 * c.val + r.val] = cell S r c := by
  simp only [cell, Nat.add_comm]

/-- R146: byte r of a column after the product is row r of the matrix times the column's four bytes before. -/
theorem getElem_mixWith (m : Vector (Vector Byte 4) 4) (S : Block) (r c : Fin 4) :
    (mixWith m S)[4 * c.val + r.val] =
      gfmul m[r.val][0] S[4 * c.val] ^^^ gfmul m[r.val][1] S[4 * c.val + 1] ^^^
        gfmul m[r.val][2] S[4 * c.val + 2] ^^^ gfmul m[r.val][3] S[4 * c.val + 3] := by
  rw [getElem_eq_cell, cell_mixWith, ← getElem_eq_cell S 0, ← getElem_eq_cell S 1, ← getElem_eq_cell S 2,
    ← getElem_eq_cell S 3]
  rfl

@[simp] theorem exec_mixcolumns (s : State) : exec .mixcolumns s = .next (s.setSt (mixColumns s.st)) := rfl

/-- Settles O17, by the four rows of the matrix M. -/
theorem mixColumnsCommand : Obligations.MixColumnsCommand := by
  intro s
  refine ⟨s.setSt (mixColumns s.st), exec_mixcolumns s, rfl, ?_⟩
  rintro c _ _ _ _ rfl rfl rfl rfl
  have hrow := fun r => getElem_mixWith mixMatrix s.st r c
  exact ⟨hrow 0, hrow 1, hrow 2, hrow 3⟩

end Sys2Proof.Machine

/-! Proofs of the statements about ENCRYPT and DECRYPT of 44_block_cipher.md: each is its sequence of round commands
(R160, R161). Once the schedule is valid no command of the sequence touches W or KV, so a list of commands computes a
function of ST and W, and these functions compose along the list. The first ADDROUNDKEY makes the schedule valid just as
ENCRYPT and DECRYPT do (R132). -/

namespace Sys2Proof.Machine

/- ## The implicit expansion (R132) -/

@[simp] theorem ensureSchedule_kv (s : State) : s.ensureSchedule.kv = true := by
  cases h : s.kv
  · rw [ensureSchedule_of_invalid h]
    rfl
  · rw [ensureSchedule_of_valid h, h]

theorem withSchedule_of_valid (f : Block → Schedule → Block) {s : State} (h : s.kv = true) :
    s.withSchedule f = s.setSt (f s.st s.w) := by
  rw [State.withSchedule, ensureSchedule_of_valid h]

/-- A schedule already expanded is not expanded again. -/
theorem withSchedule_ensureSchedule (f : Block → Schedule → Block) (s : State) :
    s.ensureSchedule.withSchedule f = s.withSchedule f :=
  withSchedule_of_valid f (ensureSchedule_kv s)

/-- R151, for an operand in the range of R84. -/
theorem exec_addroundkey {r : Byte} (hr : (Instr.addroundkey r).wellFormed = true) (s : State) :
    exec (.addroundkey r) s = .next (s.withSchedule fun S W => addRoundKey S W (index11 r)) :=
  if_pos hr

/- ## Lists of commands -/

/-- Commands one after another: when the first ones complete, the others go on from there. -/
theorem execAll_append {l : List Instr} (m : List Instr) {s t : State} (h : Claim.execAll l s = .next t) :
    Claim.execAll (l ++ m) s = Claim.execAll m t := by
  induction l generalizing s with
  | nil =>
    cases h
    rfl
  | cons i l ih =>
    simp only [List.cons_append, Claim.execAll] at h ⊢
    cases hi : exec i s with
    | next u =>
      simp only [hi] at h
      exact ih h
    | fault _ => simp [hi] at h
    | refused _ => simp [hi] at h

/-- With a valid schedule the commands `l` complete, replace ST by `g` of ST and W, and change nothing else. -/
def Computes (l : List Instr) (g : Block → Schedule → Block) : Prop :=
  ∀ s : State, s.kv = true → Claim.execAll l s = .next (s.setSt (g s.st s.w))

theorem Computes.nil : Computes [] fun S _ => S := fun _ _ => rfl

theorem Computes.append {l m : List Instr} {g h : Block → Schedule → Block} (hl : Computes l g) (hm : Computes m h) :
    Computes (l ++ m) fun S W => h (g S W) W := fun s hkv => by
  rw [execAll_append m (hl s hkv)]
  exact hm (s.setSt (g s.st s.w)) hkv

theorem Computes.cons {i : Instr} {l : List Instr} {g h : Block → Schedule → Block} (hi : Computes [i] g)
    (hl : Computes l h) : Computes (i :: l) fun S W => h (g S W) W :=
  hi.append hl

/-- Rounds one after another fold the function of a round over the list of their numbers. -/
theorem Computes.flatMap {commands : Byte → List Instr} {round : Schedule → Block → Fin 11 → Block} {rs : List Byte}
    (h : ∀ r ∈ rs, Computes (commands r) fun S W => round W S (index11 r)) :
    Computes (rs.flatMap commands) fun S W => (rs.map index11).foldl (round W) S := by
  induction rs with
  | nil => exact Computes.nil
  | cons r rs ih =>
    rw [List.forall_mem_cons] at h
    exact h.1.append (ih h.2)

/-- Where the first command is ADDROUNDKEY, the list computes its function whether or not the schedule was valid. -/
theorem execAll_addroundkey_cons {r : Byte} {l : List Instr} {g : Block → Schedule → Block}
    (hr : (Instr.addroundkey r).wellFormed = true) (h : Computes (.addroundkey r :: l) g) (s : State) :
    Claim.execAll (.addroundkey r :: l) s = .next (s.withSchedule g) := by
  have hfirst : exec (.addroundkey r) s = exec (.addroundkey r) s.ensureSchedule := by
    rw [exec_addroundkey hr, exec_addroundkey hr, withSchedule_ensureSchedule]
  have hlist : Claim.execAll (.addroundkey r :: l) s = Claim.execAll (.addroundkey r :: l) s.ensureSchedule := by
    simp only [Claim.execAll, hfirst]
  rw [hlist]
  exact h s.ensureSchedule (ensureSchedule_kv s)

/- ## The round commands (R141 to R151) -/

theorem computes_subbytes : Computes [.subbytes] fun S _ => subBytes S := fun _ _ => rfl

theorem computes_invsubbytes : Computes [.invsubbytes] fun S _ => invSubBytes S := fun _ _ => rfl

theorem computes_shiftrows : Computes [.shiftrows] fun S _ => shiftRows S := fun _ _ => rfl

theorem computes_invshiftrows : Computes [.invshiftrows] fun S _ => invShiftRows S := fun _ _ => rfl

theorem computes_mixcolumns : Computes [.mixcolumns] fun S _ => mixColumns S := fun _ _ => rfl

theorem computes_invmixcolumns : Computes [.invmixcolumns] fun S _ => invMixColumns S := fun _ _ => rfl

theorem computes_addroundkey {r : Byte} (hr : (Instr.addroundkey r).wellFormed = true) :
    Computes [.addroundkey r] fun S W => addRoundKey S W (index11 r) := fun s hkv => by
  simp only [Claim.execAll, exec_addroundkey hr, withSchedule_of_valid _ hkv]

/- ## The rounds (R160, R161) -/

theorem computes_cipherRound {r : Byte} (hr : (Instr.addroundkey r).wellFormed = true) :
    Computes [.subbytes, .shiftrows, .mixcolumns, .addroundkey r] fun S W => cipherRound W S (index11 r) :=
  computes_subbytes.cons (computes_shiftrows.cons (computes_mixcolumns.cons (computes_addroundkey hr)))

theorem computes_invCipherRound {r : Byte} (hr : (Instr.addroundkey r).wellFormed = true) :
    Computes [.invshiftrows, .invsubbytes, .addroundkey r, .invmixcolumns] fun S W => invCipherRound W S (index11 r) :=
  computes_invshiftrows.cons (computes_invsubbytes.cons ((computes_addroundkey hr).cons computes_invmixcolumns))

/-- R160: round 0, the nine middle rounds in increasing order, and round 10 without MIXCOLUMNS. -/
theorem computes_cipher :
    Computes (.addroundkey 0 ::
      ([1, 2, 3, 4, 5, 6, 7, 8, 9].flatMap fun r => [.subbytes, .shiftrows, .mixcolumns, .addroundkey r]) ++
      [.subbytes, .shiftrows, .addroundkey 10]) cipher := by
  have hranges : ∀ r ∈ ([1, 2, 3, 4, 5, 6, 7, 8, 9] : List Byte), (Instr.addroundkey r).wellFormed = true := by decide
  have hmiddle := Computes.flatMap fun r hr => computes_cipherRound (hranges r hr)
  have hlast := computes_subbytes.cons (computes_shiftrows.cons (computes_addroundkey (r := 10) (by decide)))
  exact ((computes_addroundkey (by decide)).cons hmiddle).append hlast

/-- R161: round 10, the nine middle rounds in decreasing order, and round 0 without INVMIXCOLUMNS. -/
theorem computes_invCipher :
    Computes (.addroundkey 10 ::
      ([9, 8, 7, 6, 5, 4, 3, 2, 1].flatMap fun r => [.invshiftrows, .invsubbytes, .addroundkey r, .invmixcolumns]) ++
      [.invshiftrows, .invsubbytes, .addroundkey 0]) invCipher := by
  have hranges : ∀ r ∈ ([9, 8, 7, 6, 5, 4, 3, 2, 1] : List Byte), (Instr.addroundkey r).wellFormed = true := by decide
  have hmiddle := Computes.flatMap fun r hr => computes_invCipherRound (hranges r hr)
  have hlast := computes_invshiftrows.cons (computes_invsubbytes.cons (computes_addroundkey (r := 0) (by decide)))
  exact ((computes_addroundkey (by decide)).cons hmiddle).append hlast

/- ## The commands (R163, R164) -/

/-- Settles O21: the round commands compute Cipher, and the first of them expands the schedule when ENCRYPT would. -/
theorem encryptIsItsRounds : Obligations.EncryptIsItsRounds := fun s =>
  ⟨s.withSchedule cipher, rfl, execAll_addroundkey_cons (by decide) computes_cipher s⟩

/-- Settles O22: the round commands compute InvCipher, and the first of them expands the schedule when DECRYPT would. -/
theorem decryptIsItsRounds : Obligations.DecryptIsItsRounds := fun s =>
  ⟨s.withSchedule invCipher, rfl, execAll_addroundkey_cons (by decide) computes_invCipher s⟩

end Sys2Proof.Machine

/-! Proofs of the statements about the encoding of commands in 30_encoding.md. The assembled word of a command decodes
to it, and a word that decodes is the assembled word of its command; so decoding is `encode i = v`, and the accepted
words are counted by their commands. The opcode table is compared with the decoder field by field. -/

namespace Sys2Proof.Machine

/- ## Decoding and assembling (R80 to R83, R87) -/

theorem decode_encode (i : Instr) : decode (encode i) = .ok i := by
  cases i <;> simp [encode, decode, usesNone, usesOnlyA]

theorem commandCheck_of_decode {v : Word} {i : Instr} (hdecode : decode v = .ok i) (hwf : i.wellFormed = true) :
    commandCheck v = .ok i := by
  simp [commandCheck, hdecode, hwf]

/-- Settles O2: the fields of an assembled word are those its command was given. -/
theorem decodeInvertsEncode : Obligations.DecodeInvertsEncode := fun i =>
  ⟨decode_encode i, commandCheck_of_decode (decode_encode i)⟩

/-- A word is known by its four fields (R80). -/
theorem eq_of_fields {v w : Word} (hz : zField v = zField w) (hb : bField v = bField w) (ha : aField v = aField w)
    (hop : opField v = opField w) : v = w := by
  apply BitVec.eq_of_toNat_eq
  simp only [BitVec.toNat_eq, toNat_zField, toNat_bField, toNat_aField, toNat_opField, Claim.z, Claim.b, Claim.a,
    Claim.op] at hz hb ha hop
  omega

theorem zField_of_decode {v : Word} {i : Instr} (h : decode v = .ok i) : zField v = 0 := by
  by_contra hz
  rw [decode, if_pos hz] at h
  cases h

/-- A word that decodes has the fields of its command's assembled word. -/
theorem fields_of_decode {v : Word} {i : Instr} (h : decode v = .ok i) :
    opField v = opField (encode i) ∧ aField v = aField (encode i) ∧ bField v = bField (encode i) := by
  have hz := zField_of_decode h
  simp only [decode, hz, ne_eq, not_true_eq_false, if_false] at h
  split at h <;> rename_i hop
  all_goals simp only [usesNone_eq_ok_iff, usesOnlyA_eq_ok_iff, ← aField_eq_zero_iff, ← bField_eq_zero_iff,
    reduceCtorEq, Except.ok.injEq] at h
  case h_5 =>
    obtain rfl := h
    simp [encode, BitVec.toNat_eq, hop]
  all_goals
    obtain ⟨hunused, rfl⟩ := h
    simp [encode, BitVec.toNat_eq, hop, hunused]

theorem encode_of_decode {v : Word} {i : Instr} (h : decode v = .ok i) : encode i = v := by
  obtain ⟨hop, ha, hb⟩ := fields_of_decode h
  have hz : zField (encode i) = zField v := by rw [zField_of_decode h, zField_of_decode (decode_encode i)]
  exact eq_of_fields hz hb.symm ha.symm hop.symm

theorem decode_eq_ok_iff {v : Word} {i : Instr} : decode v = .ok i ↔ encode i = v :=
  ⟨encode_of_decode, fun h => h ▸ decode_encode i⟩

/-- Settles O3: word and assembled word have the same fields. -/
theorem encodeInvertsDecode : Obligations.EncodeInvertsDecode := fun _ _ => encode_of_decode

/-- Settles O1: each word is the assembled word of its command. -/
theorem sampleWordsDecode : Obligations.SampleWordsDecode :=
  ⟨decode_encode .nop, decode_encode (.sbox 0x53), decode_encode (.invsbox 0xED), decode_encode (.rcon 10),
    decode_encode (.gfmul 0x57 0x83), decode_encode .expand, decode_encode .subbytes, decode_encode .invsubbytes,
    decode_encode .shiftrows, decode_encode .invshiftrows, decode_encode .mixcolumns, decode_encode .invmixcolumns,
    decode_encode (.addroundkey 1), decode_encode .encrypt, decode_encode .decrypt, decode_encode .zeroize⟩

/- ## The opcode table -/

/-- A word agrees with w under the mask m if each of its fields does. -/
theorem and_eq_iff_fields {v m w : Word} : v &&& m = w ↔
    zField v &&& m.extractLsb' 24 8 = w.extractLsb' 24 8 ∧ bField v &&& m.extractLsb' 16 8 = w.extractLsb' 16 8 ∧
      aField v &&& m.extractLsb' 8 8 = w.extractLsb' 8 8 ∧ opField v &&& m.extractLsb' 0 8 = w.extractLsb' 0 8 := by
  simp only [zField, bField, aField, opField, ← BitVec.extractLsb'_and]
  exact ⟨fun h => h ▸ ⟨rfl, rfl, rfl, rfl⟩, fun ⟨hz, hb, ha, hop⟩ => eq_of_fields hz hb ha hop⟩

theorem byte_and_ff (x : Byte) : x &&& 255#8 = x := BitVec.and_allOnes

/-- Settles O4, by the fields of the word that the decoder and the masks test. -/
theorem decodeFollowsOpcodeTable : Obligations.DecodeFollowsOpcodeTable := by
  intro v name
  simp only [decode, ne_eq, ite_not, zField_eq_zero_iff, toNat_opField, Claim.opcodeTable, List.exists_mem_cons_iff,
    List.not_mem_nil, false_and, exists_false, or_false, and_eq_iff_fields]
  split_ifs with hz
  · split <;> rename_i hop
    case h_17 =>
      simp only [imp_false] at *
      simp [byte_and_ff, BitVec.toNat_eq, toNat_opField, *]
    all_goals simp [mnemonic, usesNone_eq_ok_iff, usesOnlyA_eq_ok_iff, byte_and_ff, BitVec.toNat_eq, toNat_zField,
      toNat_bField, toNat_aField, toNat_opField, hz, hop]
    all_goals tauto
  · simp [BitVec.toNat_eq, toNat_zField, byte_and_ff, hz]

/- ## How many words are accepted (R85) -/

theorem encode_injective : Function.Injective encode := fun i j h => by
  have hi := decode_encode i
  rw [h, decode_encode] at hi
  exact (Except.ok.inj hi).symm

theorem finite_instr : Finite Instr := Finite.of_injective encode encode_injective

/-- The words that the checks accept are the assembled words of the commands in the ranges of R84. -/
theorem commandCheck_eq_ok_iff {v : Word} {i : Instr} :
    commandCheck v = .ok i ↔ encode i = v ∧ i.wellFormed = true := by
  constructor
  · intro h
    refine ⟨?_, wellFormed_of_check h⟩
    cases hdecode : decode v with
    | error e => simp [commandCheck, hdecode] at h
    | ok j =>
      simp only [commandCheck, hdecode] at h
      split_ifs at h
      cases h
      exact encode_of_decode hdecode
  · rintro ⟨rfl, hwf⟩
    exact commandCheck_of_decode (decode_encode i) hwf

/-- The accepted words are counted by their commands. -/
theorem countAccepted_eq_ncard (p : Instr → Prop) :
    Claim.countAccepted p = {i | i.wellFormed = true ∧ p i}.ncard := by
  have himage : {v | ∃ i, commandCheck v = .ok i ∧ p i} = encode '' {i | i.wellFormed = true ∧ p i} := by
    ext v
    simp only [commandCheck_eq_ok_iff, Set.mem_ofPred_eq, Set.mem_image]
    exact exists_congr fun i => ⟨fun ⟨⟨hv, hwf⟩, hp⟩ => ⟨⟨hwf, hp⟩, hv⟩, fun ⟨⟨hwf, hp⟩, hv⟩ => ⟨⟨hv, hwf⟩, hp⟩⟩
  rw [← Set.ncard_image_of_injective _ encode_injective, ← himage]
  rfl

/-- The commands of an opcode, with operands from `α`, are counted by the operands in the range of R84. -/
theorem countAccepted_eq_card {α : Type} [Fintype α] {command : α → Instr} (h : Function.Injective command) :
    Claim.countAccepted (fun i => ∃ x, i = command x) =
      (Finset.univ.filter fun x => (command x).wellFormed = true).card := by
  have himage : {i | i.wellFormed = true ∧ ∃ x, i = command x} =
      command '' (Finset.univ.filter fun x => (command x).wellFormed = true : Finset α) := by
    ext i
    constructor
    · rintro ⟨hwf, x, rfl⟩
      exact ⟨x, by simpa using hwf, rfl⟩
    · rintro ⟨x, hx, rfl⟩
      exact ⟨by simpa using hx, x, rfl⟩
  rw [countAccepted_eq_ncard, himage, Set.ncard_image_of_injective _ h, Set.ncard_coe_finset]

/-- The words of two groups without a common command count together. -/
theorem countAccepted_or {p q : Instr → Prop} (h : ∀ i, p i → ¬q i) :
    Claim.countAccepted (fun i => p i ∨ q i) = Claim.countAccepted p + Claim.countAccepted q := by
  have hfinite := finite_instr
  have hunion : {i | i.wellFormed = true ∧ (p i ∨ q i)} =
      {i | i.wellFormed = true ∧ p i} ∪ {i | i.wellFormed = true ∧ q i} :=
    Set.ext fun i => and_or_left
  have hdisjoint : Disjoint {i | i.wellFormed = true ∧ p i} {i | i.wellFormed = true ∧ q i} :=
    Set.disjoint_left.2 fun i hp hq => h i hp.2 hq.2
  simp only [countAccepted_eq_ncard]
  rw [hunion, Set.ncard_union_eq hdisjoint]

theorem countAccepted_noOperands : Claim.countAccepted (fun i => usesA i = false ∧ usesB i = false) = 11 := by
  have hcommands : {i | i.wellFormed = true ∧ usesA i = false ∧ usesB i = false} =
      ({.nop, .expand, .subbytes, .invsubbytes, .shiftrows, .invshiftrows, .mixcolumns, .invmixcolumns, .encrypt,
        .decrypt, .zeroize} : Finset Instr) := by
    ext i
    cases i <;> simp [usesA, usesB, Instr.wellFormed]
  rw [countAccepted_eq_ncard, hcommands, Set.ncard_coe_finset]
  rfl

theorem card_byte : Fintype.card Byte = 256 := FinEnum.card_eq_fintypeCard.symm

theorem countAccepted_lookups :
    Claim.countAccepted (fun i => (∃ x, i = .sbox x) ∨ ∃ y, i = .invsbox y) = 512 := by
  rw [countAccepted_or (by rintro _ ⟨x, rfl⟩; simp), countAccepted_eq_card fun x y => Instr.sbox.inj,
    countAccepted_eq_card fun x y => Instr.invsbox.inj]
  simp [Instr.wellFormed, card_byte]

theorem countAccepted_rcon : Claim.countAccepted (fun i => ∃ n, i = .rcon n) = 10 := by
  rw [countAccepted_eq_card fun x y => Instr.rcon.inj]
  decide

theorem countAccepted_addroundkey : Claim.countAccepted (fun i => ∃ r, i = .addroundkey r) = 11 := by
  rw [countAccepted_eq_card fun x y => Instr.addroundkey.inj]
  decide

theorem countAccepted_gfmul : Claim.countAccepted (fun i => ∃ a b, i = .gfmul a b) = 65536 := by
  have h := countAccepted_eq_card (command := fun x : Byte × Byte => .gfmul x.1 x.2)
    fun x y h => Prod.ext (Instr.gfmul.inj h).1 (Instr.gfmul.inj h).2
  simpa [Instr.wellFormed, card_byte] using h

/-- Settles O5, by the accepted words of each group of opcodes. -/
theorem legalWordCount : Obligations.LegalWordCount := by
  refine ⟨?_, countAccepted_noOperands, countAccepted_lookups, countAccepted_rcon, countAccepted_gfmul,
    countAccepted_addroundkey, ?_⟩
  · rw [Nat.card_eq_fintype_card, ← FinEnum.card_eq_fintypeCard]
    rfl
  · have hgroups : (fun _ : Instr => True) = fun i => (usesA i = false ∧ usesB i = false) ∨
        ((∃ x, i = .sbox x) ∨ ∃ y, i = .invsbox y) ∨ (∃ n, i = .rcon n) ∨ (∃ a b, i = .gfmul a b) ∨
        ∃ r, i = .addroundkey r := by
      funext i
      cases i <;> simp [usesA, usesB]
    rw [hgroups, countAccepted_or, countAccepted_noOperands, countAccepted_or, countAccepted_lookups,
      countAccepted_or, countAccepted_rcon, countAccepted_or, countAccepted_gfmul, countAccepted_addroundkey]
    all_goals
      intro i
      cases i <;> simp [usesA, usesB]

end Sys2Proof.Machine

/-! Proofs of the statements about what a step does to the data registers and the error flags: KEY (R22), W (R24), KV
(R26), ERR and ERRCODE (R29, R180), and about the invariant that every step keeps. First what an access and a completion
do to the data, said once; then what a step does to it. -/

namespace Sys2Proof.Machine

/- ## What an access does to the data registers and KV -/

@[simp] theorem setKey_data (k : Block) (s : State) : (s.setKey k).data = { s.data with key := k, kv := false } := rfl

@[simp] theorem setSt_data (b : Block) (s : State) : (s.setSt b).data = { s.data with st := b } := rfl

/-- What an access does to the data registers: a reset clears them, a KEY or a STATE write while BUSY = 0 writes its
register, and every other access keeps them. -/
theorem perform_data_cases (op : HostOp) (s : State) :
    (s.perform op).data = s.data ∨
    (op = .reset ∧ (s.perform op).data = State.reset.data) ∨
    (∃ (j : Fin 4) (v : Word), op = .write .word (Claim.off 0x010 j) v ∧ s.busy = false ∧
      (s.perform op).data = { s.data with key := setBlockWord s.key j v, kv := false }) ∨
    (∃ (j : Fin 4) (v : Word), op = .write .word (Claim.off 0x020 j) v ∧ s.busy = false ∧
      (s.perform op).data = { s.data with st := setBlockWord s.st j v }) := by
  rcases perform_cases op s with ⟨x, hx | hx⟩ | ⟨size, off, v, t, x, hop, hw, hx⟩ | ⟨rfl, hx⟩
  · exact .inl (by simp [hx])
  · exact .inl (by simp [hx])
  · rw [hx]
    cases hw with
    | @key j hsel hbusy =>
      obtain ⟨rfl, rfl⟩ := select_eq_some_iff.1 hsel
      exact .inr (.inr (.inl ⟨j, v, hop, hbusy, by simp⟩))
    | @state j hsel hbusy =>
      obtain ⟨rfl, rfl⟩ := select_eq_some_iff.1 hsel
      exact .inr (.inr (.inr ⟨j, v, hop, hbusy, by simp⟩))
    | _ => exact .inl (by simp)
  · exact .inr (.inl ⟨rfl, by rw [hx]; rfl⟩)

/-- What a step does to the data registers: a completion does what its command says, a reset clears them, a KEY or a
STATE write while BUSY = 0 writes its register, and every other step keeps them. -/
theorem step_data_cases {s t : State} (hstep : step s = .next t) :
    (∃ i, Claim.Completes s i ∧ t.data = dataAfter i s.data) ∨
    t.data = s.data ∨
    (∃ rest, s.HostMoves .reset rest ∧ t.data = State.reset.data) ∨
    (∃ (j : Fin 4) (v : Word) (rest : List HostOp), s.HostMoves (.write .word (Claim.off 0x010 j) v) rest ∧
      s.busy = false ∧ t.data = { s.data with key := setBlockWord s.key j v, kv := false }) ∨
    (∃ (j : Fin 4) (v : Word) (rest : List HostOp), s.HostMoves (.write .word (Claim.off 0x020 j) v) rest ∧
      s.busy = false ∧ t.data = { s.data with st := setBlockWord s.st j v }) := by
  rcases step_cases hstep with ⟨hmoves, i, hpending, -, rfl⟩ | ⟨op, rest, hmoves, rfl⟩ | ⟨-, -, rfl⟩
  · exact .inl ⟨i, ⟨hmoves, hpending⟩, rfl⟩
  · obtain hdata | ⟨rfl, hdata⟩ | ⟨j, v, rfl, hbusy, hdata⟩ | ⟨j, v, rfl, hbusy, hdata⟩ :=
      perform_data_cases op (s.takeAccess op rest)
    · exact .inr (.inl hdata)
    · exact .inr (.inr (.inl ⟨rest, hmoves, hdata⟩))
    · exact .inr (.inr (.inr (.inl ⟨j, v, rest, hmoves, hbusy, hdata⟩)))
    · exact .inr (.inr (.inr (.inr ⟨j, v, rest, hmoves, hbusy, hdata⟩)))
  · exact .inr (.inl rfl)

/- ## What a completion does to KEY, W and KV -/

/-- The commands that make the schedule valid (R131, R132). -/
def Expands (i : Instr) : Prop := i = .expand ∨ i = .encrypt ∨ i = .decrypt ∨ ∃ r, i = .addroundkey r

@[simp] theorem dataWithSchedule_key (f : Block → Schedule → Block) (d : Data) :
    (dataWithSchedule f d).key = d.key := by
  cases h : d.kv <;> simp [dataWithSchedule, h]

@[simp] theorem dataWithSchedule_kv (f : Block → Schedule → Block) (d : Data) : (dataWithSchedule f d).kv = true := by
  cases h : d.kv <;> simp [dataWithSchedule, h]

theorem dataWithSchedule_w (f : Block → Schedule → Block) (d : Data) :
    (dataWithSchedule f d).w = if d.kv then d.w else expand d.key := by
  cases h : d.kv <;> simp [dataWithSchedule, h]

theorem kv_of_dataWithSchedule_w_ne {f : Block → Schedule → Block} {d : Data} (h : (dataWithSchedule f d).w ≠ d.w) :
    d.kv = false := by
  by_contra hkv
  simp [dataWithSchedule_w, hkv] at h

/-- ZEROIZE alone changes KEY (R22). -/
theorem eq_zeroize_of_dataAfter_key_ne {i : Instr} {d : Data} (h : (dataAfter i d).key ≠ d.key) : i = .zeroize := by
  cases i with
  | zeroize => rfl
  | _ => simp [dataAfter] at h

/-- The commands that change W, the keyed ones only by the implicit expansion (R24). -/
theorem changesSchedule_of_dataAfter_w_ne {i : Instr} {d : Data} (h : (dataAfter i d).w ≠ d.w) :
    i = .expand ∨ (d.kv = false ∧ (i = .encrypt ∨ i = .decrypt ∨ ∃ r, i = .addroundkey r)) ∨ i = .zeroize := by
  cases i with
  | expand | zeroize => simp
  | encrypt | decrypt | addroundkey => exact .inr (.inl ⟨kv_of_dataWithSchedule_w_ne h, by simp⟩)
  | _ => simp [dataAfter] at h

theorem dataAfter_kv_of_expands {i : Instr} (h : Expands i) (d : Data) : (dataAfter i d).kv = true := by
  obtain rfl | rfl | rfl | ⟨r, rfl⟩ := h <;> simp [dataAfter]

/-- Only ZEROIZE and the commands that expand change KV (R26). -/
theorem expands_or_eq_zeroize_of_dataAfter_kv_ne {i : Instr} {d : Data} (h : (dataAfter i d).kv ≠ d.kv) :
    Expands i ∨ i = .zeroize := by
  cases i with
  | expand | encrypt | decrypt | addroundkey | zeroize => simp [Expands]
  | _ => simp [dataAfter] at h

/-- R26 in terms of the data registers: KV = 1 => W = expand(KEY). -/
def ValidSchedule (d : Data) : Prop := d.kv = true → d.w = expand d.key

theorem scheduleValid_iff_data {s : State} : s.ScheduleValid ↔ ValidSchedule s.data := Iff.rfl

theorem validSchedule_of_invalid {d : Data} (h : d.kv = false) : ValidSchedule d := fun hkv => by
  simp [h] at hkv

theorem dataWithSchedule_validSchedule (f : Block → Schedule → Block) {d : Data} (h : ValidSchedule d) :
    ValidSchedule (dataWithSchedule f d) := by
  intro _
  rw [dataWithSchedule_w, dataWithSchedule_key]
  split
  · exact h ‹_›
  · rfl

theorem dataAfter_validSchedule (i : Instr) {d : Data} (h : ValidSchedule d) : ValidSchedule (dataAfter i d) := by
  cases i with
  | expand => simp [ValidSchedule, dataAfter]
  | zeroize => exact validSchedule_of_invalid rfl
  | encrypt | decrypt | addroundkey => exact dataWithSchedule_validSchedule _ h
  | _ => simpa [ValidSchedule, dataAfter] using h

/-- Every step keeps KV = 1 => W = expand(KEY) (R26). -/
theorem step_keeps_scheduleValid {s t : State} (hstep : step s = .next t) (h : s.ScheduleValid) : t.ScheduleValid := by
  rw [scheduleValid_iff_data] at h ⊢
  obtain ⟨i, -, hdata⟩ | hdata | ⟨-, -, hdata⟩ | ⟨j, v, -, -, -, hdata⟩ | ⟨j, v, -, -, -, hdata⟩ :=
    step_data_cases hstep <;> rw [hdata]
  · exact dataAfter_validSchedule i h
  · exact h
  · exact validSchedule_of_invalid rfl
  · exact validSchedule_of_invalid rfl
  · simpa [ValidSchedule] using h

/- ## KEY, W and KV -/

/-- Settles O46, by the cases of a step on the data registers. -/
theorem keyChangesInThreeWays : Obligations.KeyChangesInThreeWays := by
  intro s t hstep hne
  change t.data.key ≠ s.data.key at hne
  obtain ⟨i, hi, hdata⟩ | hdata | ⟨rest, hmoves, -⟩ | ⟨j, v, rest, hmoves, hbusy, -⟩ | ⟨j, v, rest, -, -, hdata⟩ :=
    step_data_cases hstep
  · rw [hdata] at hne
    exact .inr (.inl (eq_zeroize_of_dataAfter_key_ne hne ▸ hi))
  · exact absurd (congrArg Data.key hdata) hne
  · exact .inr (.inr ⟨rest, hmoves⟩)
  · exact .inl ⟨hbusy, j, v, rest, hmoves⟩
  · exact absurd (congrArg Data.key hdata) hne

/-- Settles O47, by the cases of a step on the data registers. -/
theorem scheduleChangesInFourWays : Obligations.ScheduleChangesInFourWays := by
  intro s t hstep hne
  change t.data.w ≠ s.data.w at hne
  obtain ⟨i, hi, hdata⟩ | hdata | ⟨rest, hmoves, -⟩ | ⟨j, v, rest, -, -, hdata⟩ | ⟨j, v, rest, -, -, hdata⟩ :=
    step_data_cases hstep
  · rw [hdata] at hne
    obtain rfl | ⟨hkv, rfl | rfl | ⟨r, rfl⟩⟩ | rfl := changesSchedule_of_dataAfter_w_ne hne
    · exact .inl hi
    · exact .inr (.inl ⟨hkv, .inl hi⟩)
    · exact .inr (.inl ⟨hkv, .inr (.inl hi)⟩)
    · exact .inr (.inl ⟨hkv, .inr (.inr ⟨r, hi⟩)⟩)
    · exact .inr (.inr (.inl hi))
  · exact absurd (congrArg Data.w hdata) hne
  · exact .inr (.inr (.inr ⟨rest, hmoves⟩))
  · exact absurd (congrArg Data.w hdata) hne
  · exact absurd (congrArg Data.w hdata) hne

/-- A command that expands completes in a step, in the words of the statement. -/
theorem exists_completes_expands_iff {s : State} : (∃ i, Claim.Completes s i ∧ Expands i) ↔
    Claim.Completes s .expand ∨ Claim.Completes s .encrypt ∨ Claim.Completes s .decrypt ∨
      ∃ r, Claim.Completes s (.addroundkey r) := by
  constructor
  · rintro ⟨i, hi, rfl | rfl | rfl | ⟨r, rfl⟩⟩
    · exact .inl hi
    · exact .inr (.inl hi)
    · exact .inr (.inr (.inl hi))
    · exact .inr (.inr (.inr ⟨r, hi⟩))
  · rintro (hi | hi | hi | ⟨r, hi⟩)
    · exact ⟨_, hi, .inl rfl⟩
    · exact ⟨_, hi, .inr (.inl rfl)⟩
    · exact ⟨_, hi, .inr (.inr (.inl rfl))⟩
    · exact ⟨_, hi, .inr (.inr (.inr ⟨r, rfl⟩))⟩

/-- The step is one that clears KV: an accepted KEY write, ZEROIZE or reset (R26). -/
def ClearsKv (s : State) : Prop :=
  (∃ (j : Fin 4) (v : Word) (rest : List HostOp), s.busy = false ∧
    s.HostMoves (.write .word (Claim.off 0x010 j) v) rest) ∨
  Claim.Completes s .zeroize ∨ ∃ rest, s.HostMoves .reset rest

theorem step_kv_of_expands {s t : State} (hstep : step s = .next t) (h : ∃ i, Claim.Completes s i ∧ Expands i) :
    t.kv = true := by
  obtain ⟨i, hi, hexpands⟩ := h
  rw [eq_of_completes hstep hi]
  exact dataAfter_kv_of_expands hexpands s.data

/-- A KEY write while BUSY = 0 is accepted (R58). -/
theorem perform_writeKey_of_idle {s : State} (h : s.busy = false) (j : Fin 4) (v : Word) :
    s.perform (.write .word (Claim.off 0x010 j) v) =
      Claim.told (.write .word (Claim.off 0x010 j) v) .okay none (s.setKey (setBlockWord s.key j v)) := by
  have hwrite : s.writeKey j v = s.setKey (setBlockWord s.key j v) := by simp [State.writeKey, h]
  rw [← hwrite]
  exact perform_write_regOffset s (.key j) v

theorem step_kv_of_clearsKv {s t : State} (hstep : step s = .next t) (h : ClearsKv s) : t.kv = false := by
  obtain ⟨j, v, rest, hbusy, hmoves⟩ | hi | ⟨rest, hmoves⟩ := h
  · rw [eq_of_hostMoves hstep hmoves, perform_writeKey_of_idle (s := s.takeAccess _ rest) hbusy]
    rfl
  · rw [eq_of_completes hstep hi]
    rfl
  · rw [eq_of_hostMoves hstep hmoves]
    rfl

/-- A step that changes KV is one of those that set it or one of those that clear it (R26). -/
theorem expands_or_clearsKv_of_step_kv_ne {s t : State} (hstep : step s = .next t) (hne : t.kv ≠ s.kv) :
    (∃ i, Claim.Completes s i ∧ Expands i) ∨ ClearsKv s := by
  change t.data.kv ≠ s.data.kv at hne
  obtain ⟨i, hi, hdata⟩ | hdata | ⟨rest, hmoves, -⟩ | ⟨j, v, rest, hmoves, hbusy, -⟩ | ⟨j, v, rest, -, -, hdata⟩ :=
    step_data_cases hstep
  · rw [hdata] at hne
    obtain hexpands | rfl := expands_or_eq_zeroize_of_dataAfter_kv_ne hne
    · exact .inl ⟨i, hi, hexpands⟩
    · exact .inr (.inr (.inl hi))
  · exact absurd (congrArg Data.kv hdata) hne
  · exact .inr (.inr (.inr ⟨rest, hmoves⟩))
  · exact .inr (.inl ⟨j, v, rest, hbusy, hmoves⟩)
  · exact absurd (congrArg Data.kv hdata) hne

/-- Settles O49: what sets KV and what clears it exclude each other, and every change of KV is one of the two. -/
theorem keyValidFlag : Obligations.KeyValidFlag := by
  intro s t hstep
  rw [← exists_completes_expands_iff]
  refine ⟨step_kv_of_expands hstep, step_kv_of_clearsKv hstep, fun hs ht => ?_, fun hs ht => ?_,
    step_keeps_scheduleValid hstep⟩
  · obtain hexpands | hclears := expands_or_clearsKv_of_step_kv_ne hstep (by simp [hs, ht])
    · exact hexpands
    · simp [step_kv_of_clearsKv hstep hclears] at ht
  · obtain hexpands | hclears := expands_or_clearsKv_of_step_kv_ne hstep (by simp [hs, ht])
    · simp [step_kv_of_expands hstep hexpands] at ht
    · exact hclears

/- ## The invariant -/

theorem code_cases (e : CmdError) : e.code = 1 ∨ e.code = 2 ∨ e.code = 3 := by
  cases e <;> simp [CmdError.code]

theorem raise_codeLegal (e : CmdError) {s : State} (h : s.CodeLegal) : (s.raise e).CodeLegal := by
  refine ⟨fun herr => absurd herr (by simp), fun _ => ?_⟩
  cases herr : s.err with
  | false => simpa [herr] using code_cases e
  | true => simpa [herr] using h.2 herr

/-- Raising an error keeps the invariant (R180, R183). -/
theorem raise_inv (e : CmdError) {s : State} (h : s.Inv) : (s.raise e).Inv :=
  ⟨h.schedule, h.pending, h.legal, raise_codeLegal e h.code⟩

theorem codeLegal_of_err_errcode_zero {s : State} (herr : s.err = false) (hcode : s.errcode = 0) : s.CodeLegal :=
  ⟨fun _ => hcode, fun h => absurd h (by simp [herr])⟩

/-- Every access keeps that ERRCODE is 0 exactly while ERR = 0, and no reserved code (R180). -/
theorem perform_codeLegal (op : HostOp) {s : State} (h : s.CodeLegal) : (s.perform op).CodeLegal := by
  rcases perform_cases op s with ⟨x, hx | hx⟩ | ⟨size, off, v, t, x, -, hw, hx⟩ | ⟨-, hx⟩ <;> rw [hx]
  · exact h
  · exact h
  · cases hw with
    | clear => exact codeLegal_of_err_errcode_zero rfl rfl
    | busy | refused => exact raise_codeLegal _ h
    | _ => simpa [State.CodeLegal] using h
  · exact codeLegal_of_err_errcode_zero rfl rfl

theorem step_keeps_codeLegal {s t : State} (hstep : step s = .next t) (h : s.CodeLegal) : t.CodeLegal := by
  rcases step_cases hstep with ⟨-, i, -, -, rfl⟩ | ⟨op, rest, -, rfl⟩ | ⟨-, -, rfl⟩
  · exact h
  · exact perform_codeLegal op (s := s.takeAccess op rest) h
  · exact h

/-- The command that a CMD write puts in PEND is the written word, if that word decodes (R57, R82). -/
theorem word_ofWord_of_check {v : Word} {i : Instr} (h : commandCheck v = .ok i) : (Pending.ofWord v).word = v := by
  obtain ⟨rfl, -⟩ := commandCheck_eq_ok_iff.1 h
  exact commandWord_fields _ (zField_of_decode (decode_encode i))

/-- Every step keeps that the pending command passed the checks (R57). -/
theorem step_keeps_pendingLegal {s t : State} (hstep : step s = .next t) (h : s.PendingLegal) : t.PendingLegal := by
  intro p hp
  obtain ⟨-, hpend⟩ | ⟨-, -, hpend⟩ | ⟨v, rest, i, -, hcheck, -, -, hpend⟩ := step_busy_pend_cases hstep <;>
    rw [hpend] at hp
  · exact h p hp
  · cases hp
  · cases hp
    exact ⟨i, by rw [word_ofWord_of_check hcheck, hcheck]⟩

/-- Settles O52: every part of the invariant is kept by itself. -/
theorem stepKeepsInv : Obligations.StepKeepsInv := fun _ _ h hstep =>
  ⟨step_keeps_scheduleValid hstep h.schedule, step_keeps_busyIffPending hstep h.pending,
    step_keeps_pendingLegal hstep h.legal, step_keeps_codeLegal hstep h.code⟩

/-- Nothing is valid, pending or wrong in the reset state, whatever the host has yet to do. -/
theorem start_inv (program : List HostOp) : (State.start program).Inv where
  schedule := fun hkv => absurd hkv (by simp [State.start])
  pending := by simp [State.BusyIffPending, State.start]
  legal := fun p hp => absurd hp (by simp [State.start])
  code := codeLegal_of_err_errcode_zero rfl rfl

/-- Settles O51: the reset state is the start with an empty program. -/
theorem invAtReset : Obligations.InvAtReset := ⟨start_inv [], start_inv⟩

theorem pendingCommand_of_check {s : State} {p : Pending} {i : Instr} (hp : s.pend = some p)
    (hcheck : commandCheck p.word = .ok i) : s.pendingCommand = .ok i := by
  simp [State.pendingCommand, hp, hcheck]

/-- While BUSY = 1 the invariant gives the engine a command to complete. -/
theorem pendingCommand_of_inv {s : State} (h : s.Inv) (hbusy : s.busy = true) : ∃ i, s.pendingCommand = .ok i := by
  obtain ⟨p, hp⟩ := Option.ne_none_iff_exists'.1 (h.pending.1 hbusy)
  obtain ⟨i, hcheck⟩ := h.legal p hp
  exact ⟨i, pendingCommand_of_check hp hcheck⟩

/-- Settles O53: the engine moves only while BUSY = 1, and then has a legal command; the host's step always answers. -/
theorem invNeverStops : Obligations.InvNeverStops := by
  intro s h
  cases hmoves : s.engineMoves with
  | true =>
    obtain ⟨i, hi⟩ := pendingCommand_of_inv h (busy_of_engineMoves hmoves)
    exact ⟨_, step_of_completes ⟨hmoves, hi⟩⟩
  | false => exact ⟨s.hostStep, by simp [step, hmoves]⟩

end Sys2Proof.Machine

/-! Proofs of the statements about errors (60_exceptions.md) and about commands as a whole: what a legal command
changes, what an error leaves alone and where it comes from, NOP, ZEROIZE, RCON and reset. -/

namespace Sys2Proof.Machine

/- ## Commands (R84, R181) -/

/-- Settles O26: a legal command changes the data registers and KV alone. -/
theorem legalCommandsComplete : Obligations.LegalCommandsComplete := fun _ s hwf =>
  ⟨_, exec_of_wellFormed hwf s, rfl⟩

/-- Settles O27: the operands are those that `Instr.wellFormed` refuses. -/
theorem outOfRangeOperandsRaiseBadOperand : Obligations.OutOfRangeOperandsRaiseBadOperand := by
  refine ⟨fun s i hi => exec_of_outOfRange ?_ s, fun s r hr => exec_of_outOfRange ?_ s⟩
  · obtain rfl | hi := hi
    · rfl
    · simp [Instr.wellFormed, hi]
  · simp [Instr.wellFormed, hr]

/-- Settles O24: NOP changes no data, so its completion step only frees the engine. -/
theorem nopChangesNothing : Obligations.NopChangesNothing := fun _ =>
  ⟨rfl, fun h => step_of_completes h⟩

/- ## RCON (R102, R106) -/

/-- The round constants follow one another by xtime (R102). -/
theorem rconRom_succ {n : Nat} (h1 : 1 ≤ n) (h9 : n ≤ 9) :
    rconRom (Fin.ofNat 11 (n + 1)) = gfmul (rconRom (Fin.ofNat 11 n)) 0x02 := by
  interval_cases n <;> rfl

theorem exec_rcon {i : Byte} (h1 : 1 ≤ i.toNat) (h10 : i.toNat ≤ 10) (s : State) :
    exec (.rcon i) s = .next { s with result := rconRom (Fin.ofNat 11 i.toNat) } :=
  exec_of_wellFormed (i := .rcon i) (by simp [Instr.wellFormed, h1, h10]) s

/-- Settles O9, by the recurrence of the round constants. -/
theorem rconCommand : Obligations.RconCommand := by
  refine ⟨fun s => exec_rcon (i := 1) (by decide) (by decide) s, fun s i h1 h9 => ⟨_, exec_rcon h1 (by omega) s, ?_⟩⟩
  have hsucc : (i + 1).toNat = i.toNat + 1 := by
    rw [BitVec.toNat_add]
    exact Nat.mod_eq_of_lt (by simp; omega)
  rw [← rconRom_succ h1 h9, ← hsucc]
  exact exec_rcon (by omega) (by omega) s

/- ## Reset and ZEROIZE (R37, R171, R210) -/

/-- Settles O6, by the fields of the reset state. -/
theorem resetValues : Obligations.ResetValues := by
  refine ⟨?_, fun s => ⟨?_, rfl⟩⟩ <;> simp [Claim.AllZero]

/-- While BUSY = 0 every register but STATUS reads after ZEROIZE as in the reset state (R171). -/
theorem portRead_zeroizeData {s : State} (hbusy : s.busy = false) (size : Size) {off : Offset} (hoff : off ≠ 0x004) :
    portRead size off s.zeroizeData = portRead size off State.reset := by
  cases hsel : select size off with
  | none => simp [portRead, hsel]
  | some r =>
    cases r with
    | status => exact absurd (select_eq_some_iff.1 hsel).2 hoff
    | _ => simp [portRead, hsel, readReg, hbusy]

/-- Settles O25, by the fields of the cleared state and its reads. -/
theorem zeroizeClearsData : Obligations.ZeroizeClearsData := by
  intro s
  refine ⟨s.zeroizeData, rfl, rfl, by simp, by simp, fun hbusy size off => portRead_zeroizeData hbusy size⟩

/- ## Errors (R180, R183) -/

/-- What a CMD write does to the data registers, BUSY and PEND depends on these alone, not on the error flags. -/
theorem writeCmd_congr {s s' : State} (hdata : s'.data = s.data) (hbusy : s'.busy = s.busy) (hpend : s'.pend = s.pend)
    (v : Word) : (s'.writeCmd v).data = (s.writeCmd v).data ∧ (s'.writeCmd v).busy = (s.writeCmd v).busy ∧
      (s'.writeCmd v).pend = (s.writeCmd v).pend := by
  cases hs : s.busy with
  | true =>
    rw [writeCmd_of_busy hs, writeCmd_of_busy (hbusy.trans hs)]
    exact ⟨hdata, hbusy, hpend⟩
  | false =>
    cases hcheck : commandCheck v with
    | ok i =>
      rw [writeCmd_of_check hs hcheck, writeCmd_of_check (hbusy.trans hs) hcheck]
      exact ⟨hdata, rfl, rfl⟩
    | error e =>
      rw [writeCmd_of_check_error hs hcheck, writeCmd_of_check_error (hbusy.trans hs) hcheck]
      exact ⟨hdata, hbusy, hpend⟩

/-- Settles O28: an error keeps the invariant, and neither the checks at issue nor a command read the error flags. -/
theorem errorsDoNotDisturb : Obligations.ErrorsDoNotDisturb :=
  ⟨fun _ _ => ⟨rfl, rfl, rfl⟩, fun _ e h => invNeverStops _ (raise_inv e h), fun _ _ _ => writeCmd_congr rfl rfl rfl,
    fun s _ _ _ hwf => ⟨_, exec_of_wellFormed hwf s, exec_of_wellFormed hwf _⟩⟩

/-- The registers whose writes can raise an error lie at CMD's offset and from KEY0's to STATE3's (R51). -/
theorem regOffset_of_raises {r : Reg} (h : r = .cmd ∨ (∃ j, r = .key j) ∨ ∃ j, r = .state j) :
    regOffset r = 0x000 ∨ 0x010 ≤ (regOffset r).toNat ∧ (regOffset r).toNat < 0x030 := by
  obtain rfl | ⟨j, rfl⟩ | ⟨j, rfl⟩ := h
  · exact .inl rfl
  · exact .inr (by simp [regOffset]; omega)
  · exact .inr (by simp [regOffset]; omega)

/-- The error that the checks at issue raise names the rule that the word breaks (R82 to R84, R184). -/
theorem commandCheck_error_cases {v : Word} {e : CmdError} (h : commandCheck v = .error e) :
    (e = .illegalCmd ∧ Claim.Illegal v) ∨ (e = .badOperand ∧ ¬Claim.Illegal v ∧ Claim.OutOfRange v) := by
  by_cases hill : Claim.Illegal v
  · rw [commandCheck_of_illegal hill] at h
    cases h
    exact .inl ⟨rfl, hill⟩
  · by_cases hout : Claim.OutOfRange v
    · rw [(commandCheck_of_not_illegal hill).1 hout] at h
      cases h
      exact .inr ⟨rfl, hill, hout⟩
    · obtain ⟨i, hok⟩ := (commandCheck_of_not_illegal hill).2 hout
      simp [hok] at h

/-- The 32-bit write of v at off raises an error of code c while ERR = 0 (R180). -/
def RaisesCode (s : State) (off : Offset) (v : Word) (c : BitVec 4) : Prop :=
  (s.busy = true ∧ c = 3 ∧ (off = 0x000 ∨ 0x010 ≤ off.toNat ∧ off.toNat < 0x030)) ∨
  (s.busy = false ∧ c = 1 ∧ off = 0x000 ∧ Claim.Illegal v) ∨
  (s.busy = false ∧ c = 2 ∧ off = 0x000 ∧ ¬Claim.Illegal v ∧ Claim.OutOfRange v)

/-- An access that sets ERR is a write that raises an error, and does nothing else. -/
theorem perform_of_err {op : HostOp} {s : State} (herr : s.err = false) (hraised : (s.perform op).err = true) :
    ∃ off v e x, op = .write .word off v ∧ s.perform op = (s.raise e).record x ∧ RaisesCode s off v e.code := by
  rcases perform_cases op s with ⟨x, hx | hx⟩ | ⟨size, off, v, t, x, hop, hw, hx⟩ | ⟨-, hx⟩
  · simp [hx, herr] at hraised
  · simp [hx, herr] at hraised
  · rw [hx] at hraised
    cases hw with
    | busy hsel hr hbusy =>
      obtain ⟨rfl, rfl⟩ := select_eq_some_iff.1 hsel
      exact ⟨_, v, _, x, hop, hx, .inl ⟨hbusy, rfl, regOffset_of_raises hr⟩⟩
    | refused hsel hbusy he =>
      obtain ⟨rfl, rfl⟩ := select_eq_some_iff.1 hsel
      refine ⟨_, v, _, x, hop, hx, .inr ?_⟩
      obtain ⟨rfl, hill⟩ | ⟨rfl, hlegal, hout⟩ := commandCheck_error_cases he
      · exact .inl ⟨hbusy, rfl, rfl, hill⟩
      · exact .inr ⟨hbusy, rfl, rfl, hlegal, hout⟩
    | _ => simp [herr] at hraised
  · simp [hx] at hraised

/-- Settles O30: of the steps that set ERR, a completion is none, and an access is a write that raises an error. -/
theorem errorsComeFromPortWrites : Obligations.ErrorsComeFromPortWrites := by
  intro s t hstep herr hraised
  rcases step_cases hstep with ⟨-, i, -, -, rfl⟩ | ⟨op, rest, hmoves, rfl⟩ | ⟨-, -, rfl⟩
  · simp [herr] at hraised
  · obtain ⟨off, v, e, x, rfl, hperform, hcode⟩ := perform_of_err (s := s.takeAccess op rest) herr hraised
    rw [hperform]
    have hfirst : (((s.takeAccess (.write .word off v) rest).raise e).record x).errcode = e.code := by simp [herr]
    exact ⟨rfl, rfl, rfl, off, v, rest, hmoves, hfirst ▸ hcode⟩
  · simp [herr] at hraised

end Sys2Proof.Machine

/-! Proofs of the statements about reads of the register port and about the window (20_memory.md sections 1 to 4): the
data reads (R60 to R63), what a read leaves alone (R64), what it hides (R22, R62), and the address arithmetic (R50). -/

namespace Sys2Proof.Machine

/- ## Reads -/

/-- A read of STATE, RESULT or RK tells the host the register's value v while BUSY = 0, and a draw while BUSY = 1 (R60
to R63). -/
theorem perform_read_of_draws {r : Reg} (h : drawsWhenBusy r = true) {s : State} {v : Word}
    (hread : s.busy = false → readReg r s = v) :
    (s.busy = false → s.perform (.read .word (regOffset r)) =
      Claim.told (.read .word (regOffset r)) .okay (some v) s) ∧
    (s.busy = true → s.perform (.read .word (regOffset r)) =
      Claim.told (.read .word (regOffset r)) .okay (some (Config.draw s.draws s.data))
        { s with draws := s.draws + 1 }) := by
  constructor
  · intro hbusy
    simp [perform_read_regOffset, hbusy, hread hbusy]
  · intro hbusy
    have hdraw : readReg r s = Config.draw s.draws s.data := by
      cases r with
      | cmd | status | key => cases h
      | _ => simp only [readReg, hbusy, ↓reduceIte]; rfl
    rw [perform_read_regOffset, hdraw, if_pos (by simp [hbusy, h])]
    rfl

/-- A word with the four bytes of word j of a block is that word (R12, R52). -/
theorem eq_blockWord {S : Block} {j : Fin 4} {v : Word} (h : ∀ k : Fin 4, Claim.byte v k = S[4 * j.val + k.val]) :
    v = blockWord S j := by
  simp only [← byteOf_eq_byte, getElem_eq_cell] at h
  rw [← wordOf_byteOf v, h, h, h, h, blockWord]

/-- Settles O37, by the rule of a data read at each of the three kinds of register. -/
theorem dataReads : Obligations.DataReads := by
  rintro s off v (⟨j, rfl, hv⟩ | ⟨rfl, rfl⟩ | ⟨i, rfl, rfl⟩)
  · exact perform_read_of_draws (r := .state j) rfl fun hbusy => by simp [readReg, hbusy, eq_blockWord hv]
  · exact perform_read_of_draws (r := .result) rfl fun hbusy => by simp [readReg, hbusy]
  · exact perform_read_of_draws (r := .rk i) rfl fun hbusy => by simp [readReg, hbusy]

/-- Settles O38: a read uses up a draw at most, and a poll does not. -/
theorem readsChangeNothing : Obligations.ReadsChangeNothing := by
  rintro s op (⟨size, off, rfl⟩ | rfl)
  · obtain h | h := afterRead_cases size off s
    · exact ⟨s.draws, _, by simp only [State.perform, h]; rfl, rfl, le_rfl, Nat.le_succ _⟩
    · exact ⟨s.draws + 1, _, by simp only [State.perform, h]; rfl, rfl, Nat.le_succ _, le_rfl⟩
  · exact ⟨s.draws, _, rfl, rfl, le_rfl, Nat.le_succ _⟩

/-- Settles O39: no register reads KEY, and of W only RK reads, while KV = 1. -/
theorem idleReadsHideKey : Obligations.IdleReadsHideKey := by
  intro s k w size off hbusy
  cases hsel : select size off with
  | none => simp [portRead, hsel]
  | some r => cases r <;> simp +contextual [portRead, hsel, readReg, hbusy, State.statusWord]

/- ## The window (R50) -/

theorem offset?_eq_some_iff {addr : Nat} {off : Offset} :
    Config.offset? addr = some off ↔ Config.address off = addr := by
  unfold Config.offset? Config.address
  have hoff := off.isLt
  split_ifs with h
  · rw [Option.some.injEq, BitVec.toNat_eq, BitVec.toNat_ofNat, Nat.mod_eq_of_lt (by omega)]
    omega
  · simp only [false_iff]
    omega

/-- Settles O40: an offset's system address is BASE and the offset. -/
theorem windowAtBase : Obligations.WindowAtBase := by
  refine ⟨fun off => offset?_eq_some_iff.2 rfl, fun addr => ?_, fun addr off => offset?_eq_some_iff.1,
    Nat.mul_mod_right 4096 _⟩
  constructor
  · rintro ⟨off, h⟩
    obtain rfl := offset?_eq_some_iff.1 h
    have hoff := off.isLt
    exact ⟨Nat.le_add_right _ _, by unfold Config.address; omega⟩
  · intro h
    exact ⟨_, if_pos h⟩

end Sys2Proof.Machine

/-! Proofs of the statements about steps (20_memory.md section 5): which access arrives next (R68), what the host's and
the engine's steps do (R66, R67), that an access cannot disturb a pending command, and that every accepted command
completes. -/

namespace Sys2Proof.Machine

/- ## The engine's step (R66) -/

/-- A completion step is `exec` of the pending command, and then PEND is none and BUSY 0. -/
theorem exec_and_step_of_completes {s : State} {i : Instr} (h : Claim.Completes s i) :
    ∃ t, exec i s = .next t ∧ step s = .next { t with pend := none, busy := false } := by
  obtain ⟨p, -, hcheck⟩ := pendingCommand_ok h.2
  exact ⟨_, exec_of_wellFormed (wellFormed_of_check hcheck) s, step_of_completes h⟩

/-- Settles O41: a decoded command in range passed the checks. -/
theorem engineStepRunsPending : Obligations.EngineStepRunsPending := fun _ _ _ hmoves hp hdecode hwf =>
  exec_and_step_of_completes ⟨hmoves, pendingCommand_of_check hp (commandCheck_of_decode hdecode hwf)⟩

/- ## The host's step (R67, R68, R192) -/

theorem engineMoves_of_idle {s : State} (h : s.busy = false) : s.engineMoves = false := by
  simp [State.engineMoves, h]

theorem nextAccess_eq_none_iff {s : State} : s.nextAccess = none ↔ s.host = [] := by
  constructor
  · intro hnone
    by_contra hne
    obtain ⟨op, -, hsome⟩ := nextAccess_of_ne_nil s hne
    simp [hnone] at hsome
  · intro hnil
    simp [State.nextAccess, hnil]

/-- The access that arrives next stands in the list at the place of the arrival. -/
theorem nextAccess_eq_some {s : State} {op : HostOp} {rest : List HostOp} (h : s.nextAccess = some (op, rest)) :
    s.host = s.host.take s.arrivalIndex ++ op :: s.host.drop (s.arrivalIndex + 1) ∧
      rest = s.host.take s.arrivalIndex ++ s.host.drop (s.arrivalIndex + 1) := by
  unfold State.nextAccess at h
  split at h
  · cases h
  · rename_i op' hop
    cases h
    obtain ⟨hlt, rfl⟩ := List.getElem?_eq_some_iff.1 hop
    exact ⟨by simp, List.eraseIdx_eq_take_drop_succ _ _⟩

/-- With HOST_ORDERED the first access arrives next. -/
theorem arrivalIndex_of_ordered (s : State) (h : Config.hostOrdered = true) : s.arrivalIndex = 0 := by
  simp [State.arrivalIndex, h]

/-- Settles O44: the access at the place of the arrival passes those before it, which are writes. -/
theorem arrivalOrder : Obligations.ArrivalOrder := by
  refine fun s => ⟨nextAccess_eq_none_iff.symm, fun op rest h => ?_⟩
  obtain ⟨hhost, hrest⟩ := nextAccess_eq_some h
  have hne : s.host ≠ [] := fun hnil => by simp [nextAccess_eq_none_iff.2 hnil] at h
  exact ⟨_, _, hhost, hrest, isWrite_of_lt_mayArrive _ _ (arrivalIndex_lt s hne), fun hordered => by
    simp [arrivalIndex_of_ordered s hordered]⟩

/-- Settles O43: the host's step takes its next access and performs it, if it has one. -/
theorem hostStepPerformsAccess : Obligations.HostStepPerformsAccess := by
  refine ⟨fun _ _ _ => step_of_hostMoves, fun s hbusy hhost => ?_⟩
  simp [step, engineMoves_of_idle hbusy, State.hostStep, nextAccess_eq_none_iff.2 hhost]

/- ## The model's loading of a word (assumption log 7) -/

/-- A single access of the host arrives next. -/
theorem hostMoves_of_singleton {s : State} {op : HostOp} (hbusy : s.busy = false) (hhost : s.host = [op]) :
    s.HostMoves op [] := by
  refine ⟨engineMoves_of_idle hbusy, ?_⟩
  have hindex : s.arrivalIndex = 0 := by simp [State.arrivalIndex, hhost, mayArrive]
  simp [State.nextAccess, hindex, hhost]

theorem withFetchWord_of_ok {nbits w : Nat} {i : Instr} (h : commandCheck (tableWord nbits w) = .ok i) (s : State) :
    s.withFetchWord nbits w =
      { s with host := [], busy := true, pend := some (Pending.ofWord (tableWord nbits w)) } := by
  simp [State.withFetchWord, h]

theorem withFetchWord_of_error {nbits w : Nat} {e : CmdError} (h : commandCheck (tableWord nbits w) = .error e)
    (s : State) : s.withFetchWord nbits w =
      { s with host := [.write .word 0x000 (tableWord nbits w)], busy := false, pend := none } := by
  simp [State.withFetchWord, h]

/-- An accepted word completes in the next step. -/
theorem completes_withFetchWord {nbits w : Nat} {i : Instr} (h : commandCheck (tableWord nbits w) = .ok i)
    (s : State) : Claim.Completes (s.withFetchWord nbits w) i := by
  rw [withFetchWord_of_ok h]
  exact ⟨rfl, pendingCommand_of_check rfl (by rw [word_ofWord_of_check h, h])⟩

/-- The next step on a refused word is its CMD write, which raises the error. -/
theorem step_withFetchWord_of_error {nbits w : Nat} {e : CmdError} (h : commandCheck (tableWord nbits w) = .error e)
    (s : State) : ∃ t, step (s.withFetchWord nbits w) = .next t ∧ t.data = s.data ∧ t.err = true ∧ t.host = [] ∧
      t.busy = false := by
  rw [withFetchWord_of_error h]
  refine ⟨_, step_of_hostMoves (hostMoves_of_singleton rfl rfl), ?_⟩
  rw [perform_writeCmd, writeCmd_of_check_error rfl h]
  exact ⟨rfl, rfl, rfl, rfl⟩

/-- Settles O42, by the outcome of the checks at issue. -/
theorem fetchWordRunsNext : Obligations.FetchWordRunsNext := by
  intro s nbits w
  refine ⟨fun i h => exec_and_step_of_completes (completes_withFetchWord h s),
    fun e h => step_withFetchWord_of_error h s, ?_⟩
  cases h : commandCheck (tableWord nbits w) with
  | ok i => rw [withFetchWord_of_ok h]; exact ⟨rfl, rfl, rfl⟩
  | error e => rw [withFetchWord_of_error h]; exact ⟨rfl, rfl, rfl⟩

/- ## A pending command (R66) -/

/-- What the completion of the pending command depends on: the data registers, BUSY, PEND and the count of accepted
commands; and what the host has yet to do, and how long it has waited. -/
def SamePending (s t : State) : Prop :=
  t.data = s.data ∧ t.busy = s.busy ∧ t.pend = s.pend ∧ t.accepts = s.accepts ∧ t.host = s.host ∧ t.waited = s.waited

/-- While BUSY = 1 no access but reset changes any of it. -/
theorem perform_samePending {op : HostOp} {s : State} (hbusy : s.busy = true) (hop : op ≠ .reset) :
    SamePending s (s.perform op) := by
  rcases perform_cases op s with ⟨x, hx | hx⟩ | ⟨size, off, v, t, x, -, hw, hx⟩ | ⟨hreset, -⟩
  · simp [SamePending, hx]
  · simp [SamePending, hx]
  · rw [hx]
    cases hw with
    | nothing | clear | busy => exact ⟨rfl, rfl, rfl, rfl, rfl, rfl⟩
    | refused _ hidle | accepted _ hidle | key _ hidle | state _ hidle => simp [hbusy] at hidle
  · exact absurd hreset hop

/-- Settles O45: no access but reset changes what the completion depends on. -/
theorem busyProtectsCommand : Obligations.BusyProtectsCommand := by
  intro s op hbusy hop
  obtain ⟨hdata, hkept, hpend, haccepts, hhost, -⟩ := perform_samePending hbusy hop
  exact ⟨hdata, hkept.trans hbusy, hpend, haccepts, hhost⟩

/-- A command is pending, legal and waiting, and the host resets nothing. -/
structure Waiting (s : State) (i : Instr) : Prop where
  busy : s.busy = true
  pending : s.pendingCommand = .ok i
  noReset : HostOp.reset ∉ s.host

theorem pendingCommand_congr {s t : State} (hpend : t.pend = s.pend) : t.pendingCommand = s.pendingCommand := by
  simp only [State.pendingCommand, hpend]

theorem latency_congr {s t : State} (hdata : t.data = s.data) (hpend : t.pend = s.pend)
    (haccepts : t.accepts = s.accepts) : t.latency = s.latency := by
  simp only [State.latency, hdata, hpend, haccepts]

theorem mem_host_of_nextAccess {s : State} {op : HostOp} {rest : List HostOp} (h : s.nextAccess = some (op, rest)) :
    op ∈ s.host := by
  rw [(nextAccess_eq_some h).1]
  simp

/-- Taking an access brings none into the host's list. -/
theorem takeAccess_host_subset {s : State} {op : HostOp} {rest : List HostOp} (h : s.nextAccess = some (op, rest)) :
    (s.takeAccess op rest).host ⊆ s.host := by
  obtain ⟨hhost, hrest⟩ := nextAccess_eq_some h
  have hsub : rest ⊆ s.host := by
    rw [hhost, hrest]
    exact ((List.sublist_cons_self _ _).append_left _).subset
  rw [State.takeAccess_host]
  split
  · exact List.Subset.refl _
  · exact hsub

/-- Where the engine does not move, the host performs an access, after which the same command waits, with the same data
and the same latency, and one access more has been performed. -/
theorem Waiting.step {s : State} {i : Instr} (h : Waiting s i) (hidle : s.engineMoves = false) :
    ∃ t, step s = .next t ∧ Waiting t i ∧ t.data = s.data ∧ t.latency = s.latency ∧ t.waited = s.waited + 1 := by
  have hne : s.host ≠ [] := fun hnil => by simp [State.engineMoves, h.busy, hnil] at hidle
  obtain ⟨op, -, hnext⟩ := nextAccess_of_ne_nil s hne
  have hop : op ≠ .reset := fun hreset => h.noReset (hreset ▸ mem_host_of_nextAccess hnext)
  obtain ⟨hdata, hbusy, hpend, haccepts, hhost, hwaited⟩ := perform_samePending (s := s.takeAccess op _) h.busy hop
  refine ⟨_, step_of_hostMoves ⟨hidle, hnext⟩, ⟨hbusy.trans h.busy, ?_, fun hreset => ?_⟩, hdata,
    latency_congr hdata hpend haccepts, hwaited⟩
  · rw [pendingCommand_congr (s := s) hpend, h.pending]
  · exact h.noReset (takeAccess_host_subset hnext (hhost ▸ hreset))

/-- Once LAT accesses have been performed, the engine moves. -/
theorem Waiting.engineMoves {s : State} {i : Instr} (h : Waiting s i) (hlatency : s.latency ≤ s.waited) :
    s.engineMoves = true := by
  unfold State.engineMoves
  rw [if_pos h.busy]
  split
  · rfl
  · exact decide_eq_true hlatency

theorem run_succ_of_step {s t : State} (h : step s = .next t) (k : Nat) :
    Sys2Proof.core.run (k + 1) s = Sys2Proof.core.run k t := by
  have hcore : Sys2Proof.core.step s = .next t := h
  simp only [Host.Core.run, hcore]

/-- A waiting command completes after at most the accesses that LAT still asks for, with the data its completion gives
now. -/
theorem Waiting.completes {i : Instr} {d : Nat} {s : State} (h : Waiting s i) (hd : s.latency ≤ s.waited + d) :
    ∃ k t, Sys2Proof.core.run k s = .next t ∧ t.busy = false ∧ t.pend = none ∧ t.data = dataAfter i s.data := by
  induction d generalizing s with
  | zero => exact ⟨1, _, run_succ_of_step (step_of_completes ⟨h.engineMoves hd, h.pending⟩) 0, rfl, rfl, rfl⟩
  | succ d ih =>
    cases hmoves : s.engineMoves with
    | true => exact ⟨1, _, run_succ_of_step (step_of_completes ⟨hmoves, h.pending⟩) 0, rfl, rfl, rfl⟩
    | false =>
      obtain ⟨u, hstep, hu, hdata, hlatency, hwaited⟩ := h.step hmoves
      obtain ⟨k, t, hrun, ht⟩ := ih hu (by omega)
      exact ⟨k + 1, t, (run_succ_of_step hstep k).trans hrun, hdata ▸ ht⟩

/-- Settles O54: the command waits until the engine moves, and then completes. -/
theorem acceptedCommandCompletes : Obligations.AcceptedCommandCompletes := by
  intro s i hbusy hpending hreset
  obtain ⟨p, -, hcheck⟩ := pendingCommand_ok hpending
  have hwaiting : Waiting s i := ⟨hbusy, hpending, hreset⟩
  obtain ⟨k, t, hrun, ht⟩ := hwaiting.completes (d := s.latency) (Nat.le_add_left _ _)
  exact ⟨k, t, _, hrun, exec_of_wellFormed (wellFormed_of_check hcheck) s, ht⟩

end Sys2Proof.Machine

/-! Proofs of the statements about the field GF(2^8) (41_gf_arith.md R121) and the S-box (40_rom_lookup.md R100). The
loop of R120 adds in both factors and commutes with `gfShift`, the product by the polynomial x. Every byte is a sum of
shifts of 1, so a law that holds for 1 and is kept by shifts and sums holds for all bytes. -/

namespace Sys2Proof.Machine

/- ## The loop adds and shifts (R120) -/

theorem gfShift_eq (a : Byte) : gfShift a = a <<< 1 ^^^ if a.getLsbD 7 then 0x1B else 0 := by
  unfold gfShift
  split
  · rfl
  · exact BitVec.xor_zero.symm

theorem gfLoop_succ (n : Nat) (a b p : Byte) :
    gfLoop (n + 1) a b p = gfLoop n (gfShift a) (b >>> 1) (p ^^^ if b.getLsbD 0 then a else 0) := by
  rw [gfLoop]
  split <;> simp

/-- A byte selected by a sum of two bits is the sum of what each bit selects. -/
theorem ite_xor (c d : Bool) (x : Byte) :
    (if (c ^^ d) = true then x else 0) = (if c then x else 0) ^^^ if d then x else 0 := by
  cases c <;> cases d <;> simp

/-- A bit selects from a sum of bytes the sum of what it selects from each. -/
theorem ite_xor_ite (c : Bool) (x y : Byte) :
    (if c then x ^^^ y else 0) = (if c then x else 0) ^^^ if c then y else 0 := by
  cases c <;> simp

theorem gfShift_xor (a b : Byte) : gfShift (a ^^^ b) = gfShift a ^^^ gfShift b := by
  simp only [gfShift_eq, BitVec.getLsbD_xor, BitVec.shiftLeft_xor_distrib, ite_xor]
  ac_rfl

theorem gfLoop_xor_left (n : Nat) (a a' b p p' : Byte) :
    gfLoop n (a ^^^ a') b (p ^^^ p') = gfLoop n a b p ^^^ gfLoop n a' b p' := by
  induction n generalizing a a' b p p' with
  | zero => rfl
  | succ n ih =>
    simp only [gfLoop_succ, gfShift_xor, ite_xor_ite, ← ih]
    congr 1
    ac_rfl

theorem gfLoop_xor_right (n : Nat) (a b b' p p' : Byte) :
    gfLoop n a (b ^^^ b') (p ^^^ p') = gfLoop n a b p ^^^ gfLoop n a b' p' := by
  induction n generalizing a b b' p p' with
  | zero => rfl
  | succ n ih =>
    simp only [gfLoop_succ, BitVec.getLsbD_xor, BitVec.ushiftRight_xor_distrib, ite_xor, ← ih]
    congr 1
    ac_rfl

theorem gfLoop_gfShift (n : Nat) (a b p : Byte) : gfLoop n (gfShift a) b (gfShift p) = gfShift (gfLoop n a b p) := by
  induction n generalizing a b p with
  | zero => rfl
  | succ n ih =>
    rw [gfLoop_succ, gfLoop_succ, ← ih, gfShift_xor]
    congr 2
    split <;> rfl

theorem gfmul_xor_left (a a' b : Byte) : gfmul (a ^^^ a') b = gfmul a b ^^^ gfmul a' b := gfLoop_xor_left 8 a a' b 0 0

theorem gfmul_xor_right (a b b' : Byte) : gfmul a (b ^^^ b') = gfmul a b ^^^ gfmul a b' := gfLoop_xor_right 8 a b b' 0 0

theorem gfmul_gfShift_left (a b : Byte) : gfmul (gfShift a) b = gfShift (gfmul a b) := gfLoop_gfShift 8 a b 0

/-- A byte is its lowest bit and the shift of its other bits. -/
theorem eq_xor_gfShift (a : Byte) : a = (if a.getLsbD 0 then 1 else 0) ^^^ gfShift (a >>> 1) := by
  revert a
  decide

theorem toNat_ushiftRight_one_lt {a : Byte} (h : a ≠ 0) : (a >>> 1).toNat < a.toNat := by
  have hpos : a.toNat ≠ 0 := fun hzero => h (BitVec.eq_of_toNat_eq hzero)
  rw [BitVec.toNat_ushiftRight, Nat.shiftRight_eq_div_pow]
  omega

/-- Every byte is a sum of shifts of 1. -/
theorem byte_induction {p : Byte → Prop} (one : p 1) (shift : ∀ a, p a → p (gfShift a))
    (add : ∀ a b, p a → p b → p (a ^^^ b)) (a : Byte) : p a := by
  have zero : p 0 := add 1 1 one one
  induction h : a.toNat using Nat.strong_induction_on generalizing a with
  | _ n ih =>
    subst h
    by_cases hzero : a = 0
    · exact hzero ▸ zero
    · have hhalf : p (gfShift (a >>> 1)) := shift _ (ih (a >>> 1).toNat (toNat_ushiftRight_one_lt hzero) _ rfl)
      rw [eq_xor_gfShift a]
      split
      · exact add 1 _ one hhalf
      · exact add 0 _ zero hhalf

theorem one_gfmul (b : Byte) : gfmul 1 b = b := by
  revert b
  decide

theorem gfmul_one (a : Byte) : gfmul a 1 = a := by
  simp [gfmul, gfLoop]

theorem gfmul_zero (a : Byte) : gfmul a 0 = 0 := by
  simp [gfmul, gfLoop]

theorem gfmul_gfShift_right (a b : Byte) : gfmul a (gfShift b) = gfShift (gfmul a b) := by
  induction a using byte_induction with
  | one => rw [one_gfmul, one_gfmul]
  | shift a ih => rw [gfmul_gfShift_left, ih, gfmul_gfShift_left]
  | add a a' ih ih' => rw [gfmul_xor_left, ih, ih', gfmul_xor_left, gfShift_xor]

theorem gfmul_comm (a b : Byte) : gfmul a b = gfmul b a := by
  induction a using byte_induction with
  | one => rw [one_gfmul, gfmul_one]
  | shift a ih => rw [gfmul_gfShift_left, ih, gfmul_gfShift_right]
  | add a a' ih ih' => rw [gfmul_xor_left, ih, ih', gfmul_xor_right]

theorem gfmul_assoc (a b c : Byte) : gfmul a (gfmul b c) = gfmul (gfmul a b) c := by
  induction a using byte_induction with
  | one => rw [one_gfmul, one_gfmul]
  | shift a ih => rw [gfmul_gfShift_left, ih, gfmul_gfShift_left, gfmul_gfShift_left]
  | add a a' ih ih' => rw [gfmul_xor_left, ih, ih', gfmul_xor_left, gfmul_xor_left]

theorem zero_gfmul (b : Byte) : gfmul 0 b = 0 := by
  rw [gfmul_comm, gfmul_zero]

theorem gfmul_two (a : Byte) : gfmul a 0x02 = gfShift a := by
  have h := gfmul_gfShift_right a 1
  rwa [gfmul_one] at h

/- ## Inverses and the S-box (R100) -/

/-- The byte whose affine image is the S-box entry of x: the inverse of x, and 0 for 0. -/
def gfInv (x : Byte) : Byte :=
  (sboxRom x).rotateLeft 1 ^^^ (sboxRom x).rotateLeft 3 ^^^ (sboxRom x).rotateLeft 6 ^^^ 0x05

theorem gfInv_zero : gfInv 0 = 0 := by decide

/-- R100, read off the printed table entry by entry. -/
theorem affine_gfInv (x : Byte) : Claim.affine (gfInv x) = sboxRom x := by
  revert x
  decide

theorem gfmul_gfInv {x : Byte} (h : x ≠ 0) : gfmul x (gfInv x) = 1 := by
  revert x
  decide

/-- Settles O7: the S-box entry is the affine image of the inverse. -/
theorem sboxIsAffineInverse : Obligations.SboxIsAffineInverse := by
  intro s x
  refine ⟨gfInv x, ?_, ?_⟩
  · by_cases h : x = 0
    · exact .inl ⟨h, h ▸ gfInv_zero⟩
    · exact .inr (gfmul_gfInv h)
  · rw [exec_sbox, affine_gfInv]
    rfl

/-- An inverse is the only one: b = b(ac) = (ba)c = c. -/
theorem eq_of_gfmul_eq_one {a b c : Byte} (hb : gfmul a b = 1) (hc : gfmul a c = 1) : b = c := by
  rw [← gfmul_one b, ← hc, gfmul_assoc, gfmul_comm b a, hb, one_gfmul]

/-- Settles O11, by the laws of the loop. -/
theorem gfmulFieldLaws : Obligations.GfmulFieldLaws := by
  refine ⟨gfmul_comm, gfmul_assoc, gfmul_xor_right, fun a => ⟨gfmul_zero a, gfmul_one a⟩, fun a ha => ?_,
    fun a => ⟨rfl, ?_⟩⟩
  · exact ⟨gfInv a, gfmul_gfInv ha, fun b hb => eq_of_gfmul_eq_one hb (gfmul_gfInv ha)⟩
  · rw [gfmul_two, gfShift_eq]

end Sys2Proof.Machine

/-! Proofs of the statements about the round primitives (43_round_primitives.md): the substitutions, the row rotations
and the matrix products, each with its inverse. The products compose like matrices over GF(2^8), so the inverse and the
fourth power of MixColumns are products of matrices. -/

namespace Sys2Proof.Machine

/- ## SubBytes (R140 to R142) -/

@[simp] theorem exec_subbytes (s : State) : exec .subbytes s = .next (s.setSt (subBytes s.st)) := rfl

@[simp] theorem exec_invsubbytes (s : State) : exec .invsubbytes s = .next (s.setSt (invSubBytes s.st)) := rfl

@[simp] theorem invSubBytes_subBytes (S : Block) : invSubBytes (subBytes S) = S := block_ext fun r c => by simp

@[simp] theorem subBytes_invSubBytes (S : Block) : subBytes (invSubBytes S) = S := block_ext fun r c => by simp

/-- Of two writes of ST the second stays. -/
@[simp] theorem setSt_setSt (S T : Block) (s : State) : (s.setSt S).setSt T = s.setSt T := rfl

@[simp] theorem setSt_st_self (s : State) : s.setSt s.st = s := rfl

/-- Settles O15, by the inverse substitution. -/
theorem subBytesCommands : Obligations.SubBytesCommands := by
  intro s
  refine ⟨⟨s.setSt (subBytes s.st), exec_subbytes s, rfl, fun i => by simp [subBytes], ?_⟩,
    ⟨s.setSt (invSubBytes s.st), exec_invsubbytes s, rfl, fun i => by simp [invSubBytes], ?_⟩⟩ <;> simp

/- ## ShiftRows (R143 to R145) -/

@[simp] theorem exec_shiftrows (s : State) : exec .shiftrows s = .next (s.setSt (shiftRows s.st)) := rfl

@[simp] theorem exec_invshiftrows (s : State) : exec .invshiftrows s = .next (s.setSt (invShiftRows s.st)) := rfl

@[simp] theorem invShiftRows_shiftRows (S : Block) : invShiftRows (shiftRows S) = S := block_ext fun r c => by simp

@[simp] theorem shiftRows_invShiftRows (S : Block) : shiftRows (invShiftRows S) = S := block_ext fun r c => by simp

/-- Row r is rotated by 4r in all, which is no rotation of a row of four bytes. -/
theorem shiftRows_four (S : Block) : shiftRows (shiftRows (shiftRows (shiftRows S))) = S := by
  have hfull : ∀ r c : Fin 4, c + r + r + r + r = c := by decide
  exact block_ext fun r c => by simp [hfull]

/-- The index permutation of ShiftRows (R143). -/
theorem shiftRows_eq (S : Block) : shiftRows S = #v[S[0], S[5], S[10], S[15], S[4], S[9], S[14], S[3],
    S[8], S[13], S[2], S[7], S[12], S[1], S[6], S[11]] := by
  refine block_ext fun r c => ?_
  rw [cell_shiftRows]
  fin_cases r <;> fin_cases c <;> rfl

/-- The index permutation of InvShiftRows (R143). -/
theorem invShiftRows_eq (S : Block) : invShiftRows S = #v[S[0], S[13], S[10], S[7], S[4], S[1], S[14], S[11],
    S[8], S[5], S[2], S[15], S[12], S[9], S[6], S[3]] := by
  refine block_ext fun r c => ?_
  rw [cell_invShiftRows]
  fin_cases r <;> fin_cases c <;> rfl

/-- Row r, column c of InvShiftRows in the numbers of R143. -/
theorem getElem_invShiftRows (S : Block) (r c : Fin 4) :
    (invShiftRows S)[r.val + 4 * c.val] = S[r.val + 4 * ((c.val + 4 - r.val) % 4)] := by
  have hcolumn : (c - r).val = (c.val + 4 - r.val) % 4 := by
    rw [Fin.val_sub]
    omega
  simpa only [cell, hcolumn] using cell_invShiftRows S r c

/-- Settles O16: the rotations cell by cell, and the inverse ones. -/
theorem shiftRowsCommands : Obligations.ShiftRowsCommands := fun s =>
  ⟨⟨_, exec_shiftrows s, rfl, cell_shiftRows s.st, shiftRows_eq s.st, by simp⟩,
    ⟨_, exec_invshiftrows s, rfl, getElem_invShiftRows s.st, invShiftRows_eq s.st, by simp⟩,
    by simp [Claim.execAll, shiftRows_four]⟩

/- ## MixColumns (R146 to R149) -/

@[simp] theorem exec_invmixcolumns (s : State) : exec .invmixcolumns s = .next (s.setSt (invMixColumns s.st)) := rfl

/-- The product of two matrices over GF(2^8). -/
def matMul (m n : Vector (Vector Byte 4) 4) : Vector (Vector Byte 4) 4 :=
  Vector.ofFn fun r => Vector.ofFn fun c =>
    gfmul m[r.val][0] n[0][c.val] ^^^ gfmul m[r.val][1] n[1][c.val] ^^^ gfmul m[r.val][2] n[2][c.val] ^^^
      gfmul m[r.val][3] n[3][c.val]

/-- The identity matrix over GF(2^8). -/
def identityMatrix : Vector (Vector Byte 4) 4 :=
  #v[#v[0x01, 0x00, 0x00, 0x00],
     #v[0x00, 0x01, 0x00, 0x00],
     #v[0x00, 0x00, 0x01, 0x00],
     #v[0x00, 0x00, 0x00, 0x01]]

/-- One product after another is the product by the product of the matrices. -/
theorem mixWith_mixWith (m n : Vector (Vector Byte 4) 4) (S : Block) :
    mixWith m (mixWith n S) = mixWith (matMul m n) S := by
  refine block_ext fun r c => ?_
  simp only [cell_mixWith, matMul, Vector.getElem_ofFn, gfmul_xor_right, gfmul_xor_left, gfmul_assoc]
  ac_rfl

theorem mixWith_identityMatrix (S : Block) : mixWith identityMatrix S = S := by
  -- the entries of the matrix in the form that `simp` gives them
  have hone : ∀ b, gfmul 1#8 b = b := one_gfmul
  have hzero : ∀ b, gfmul 0#8 b = 0#8 := zero_gfmul
  refine block_ext fun r c => ?_
  rw [cell_mixWith]
  fin_cases r <;> simp [identityMatrix, hone, hzero]

theorem invMixColumns_mixColumns (S : Block) : invMixColumns (mixColumns S) = S := by
  rw [invMixColumns, mixColumns, mixWith_mixWith, show matMul invMixMatrix mixMatrix = identityMatrix by decide,
    mixWith_identityMatrix]

theorem mixColumns_invMixColumns (S : Block) : mixColumns (invMixColumns S) = S := by
  rw [invMixColumns, mixColumns, mixWith_mixWith, show matMul mixMatrix invMixMatrix = identityMatrix by decide,
    mixWith_identityMatrix]

/-- Settles O18, by the four rows of the matrix Minv and its product with M. -/
theorem invMixColumnsCommand : Obligations.InvMixColumnsCommand := by
  refine fun s => ⟨⟨_, exec_invmixcolumns s, rfl, ?_⟩, by simp [Claim.execAll, invMixColumns_mixColumns]⟩
  rintro c _ _ _ _ rfl rfl rfl rfl
  have hrow := fun r => getElem_mixWith invMixMatrix s.st r c
  exact ⟨hrow 0, hrow 1, hrow 2, hrow 3⟩

/-- The fourth power of M is the identity. -/
theorem mixColumns_four (S : Block) : mixColumns (mixColumns (mixColumns (mixColumns S))) = S := by
  simp only [mixColumns, mixWith_mixWith]
  rw [show matMul mixMatrix (matMul mixMatrix (matMul mixMatrix mixMatrix)) = identityMatrix by decide,
    mixWith_identityMatrix]

/-- Each row of M sums to 1, so a column of equal bytes stays. -/
theorem cell_mixColumns_of_equal {S : Block} {c : Fin 4} {x : Byte} (h : ∀ r, cell S r c = x) (r : Fin 4) :
    cell (mixColumns S) r c = x := by
  have hsum : ∀ r : Fin 4, mixMatrix[r.val][0] ^^^ mixMatrix[r.val][1] ^^^ mixMatrix[r.val][2] ^^^
      mixMatrix[r.val][3] = 1 := by decide
  rw [mixColumns, cell_mixWith, h, h, h, h, ← gfmul_xor_left, ← gfmul_xor_left, ← gfmul_xor_left, hsum, one_gfmul]

/-- Settles O19, by the fourth power of M and the sums of its rows. -/
theorem mixColumnsFourTimesIsIdentity : Obligations.MixColumnsFourTimesIsIdentity := fun s =>
  ⟨by simp [Claim.execAll, mixColumns_four],
    fun _ _ h => ⟨_, exec_mixcolumns s, cell_mixColumns_of_equal h⟩⟩

end Sys2Proof.Machine

/-! Proofs of the statements about the commands that use the key schedule: the implicit expansion (R132), ADDROUNDKEY
(R150, R151), and that ENCRYPT and DECRYPT undo each other (R162 to R164). -/

namespace Sys2Proof.Machine

/- ## The implicit expansion (R132) -/

/-- ENCRYPT, DECRYPT and ADDROUNDKEY r with r in 0..10: the commands that use the schedule. -/
def Keyed (i : Instr) : Prop := i = .encrypt ∨ i = .decrypt ∨ ∃ r : Byte, r.toNat ≤ 10 ∧ i = .addroundkey r

theorem wellFormed_addroundkey {r : Byte} (h : r.toNat ≤ 10) : (Instr.addroundkey r).wellFormed = true := by
  simp [Instr.wellFormed, h]

/-- A keyed command is the implicit expansion and a change of ST. -/
theorem exists_exec_eq_withSchedule {i : Instr} (h : Keyed i) : ∃ f, ∀ s, exec i s = .next (s.withSchedule f) := by
  obtain rfl | rfl | ⟨r, hr, rfl⟩ := h
  · exact ⟨cipher, fun _ => rfl⟩
  · exact ⟨invCipher, fun _ => rfl⟩
  · exact ⟨_, exec_addroundkey (wellFormed_addroundkey hr)⟩

/-- Settles O13: an implicit expansion after EXPAND finds the schedule valid. -/
theorem implicitExpansion : Obligations.ImplicitExpansion := by
  intro s i hi
  obtain ⟨f, hf⟩ := exists_exec_eq_withSchedule hi
  refine ⟨fun hkv => ⟨s.expandKey, _, rfl, hf s, ?_⟩, fun hkv => ⟨_, hf s, ?_⟩⟩
  · rw [hf, ← ensureSchedule_of_invalid hkv, withSchedule_ensureSchedule]
  · rw [withSchedule_of_valid f hkv]
    exact ⟨rfl, hkv⟩

/-- The implicit expansion writes W and KV alone. -/
theorem ensureSchedule_eq (s : State) :
    s.ensureSchedule = { s with w := if s.kv then s.w else expand s.key, kv := true } := by
  cases hkv : s.kv with
  | true => rw [ensureSchedule_of_valid hkv, if_pos rfl, ← hkv]
  | false => exact ensureSchedule_of_invalid hkv

@[simp] theorem ensureSchedule_st (s : State) : s.ensureSchedule.st = s.st := by
  rw [ensureSchedule_eq]

/-- In a state that keeps R26, W is expand(KEY) after the implicit expansion, whether it was before or not. -/
theorem ensureSchedule_of_scheduleValid {s : State} (h : s.ScheduleValid) :
    s.ensureSchedule = { s with w := expand s.key, kv := true } := by
  have hw : (if s.kv then s.w else expand s.key) = expand s.key := by
    split
    · exact h ‹_›
    · rfl
  rw [ensureSchedule_eq, hw]

theorem withSchedule_of_scheduleValid (f : Block → Schedule → Block) {s : State} (h : s.ScheduleValid) :
    s.withSchedule f = { s with st := f s.st (expand s.key), w := expand s.key, kv := true } := by
  rw [State.withSchedule, ensureSchedule_of_scheduleValid h]
  rfl

/-- Settles O14: each of the three commands is the implicit expansion and its function of ST and W. -/
theorem keyedCommandsUseExpandedKey : Obligations.KeyedCommandsUseExpandedKey := by
  refine fun s h => ⟨?_, ?_, fun r hr => ?_⟩
  · exact congrArg Host.Outcome.next (withSchedule_of_scheduleValid cipher h)
  · exact congrArg Host.Outcome.next (withSchedule_of_scheduleValid invCipher h)
  · rw [exec_addroundkey (wellFormed_addroundkey hr), withSchedule_of_scheduleValid _ h]
    rfl

/-- ST after a keyed command, in terms of the schedule it leaves. -/
theorem withSchedule_st (f : Block → Schedule → Block) (s : State) :
    (s.withSchedule f).st = f s.st (s.withSchedule f).w := by
  rw [State.withSchedule, State.setSt_st, State.setSt_w, ensureSchedule_st]

/-- Of two keyed commands the second undoes what the first does to ST if its function does, for every schedule. -/
theorem withSchedule_withSchedule {f g : Block → Schedule → Block} (h : ∀ S W, g (f S W) W = S) (s : State) :
    (s.withSchedule f).withSchedule g = (s.withSchedule f).setSt s.st := by
  have hkv : (s.withSchedule f).kv = true := ensureSchedule_kv s
  rw [withSchedule_of_valid g hkv, withSchedule_st, h]

/- ## AddRoundKey (R150, R151) -/

/-- AddRoundKey XORs a byte twice with the same byte of the schedule. -/
@[simp] theorem addRoundKey_addRoundKey (S : Block) (W : Schedule) (r : Fin 11) :
    addRoundKey (addRoundKey S W r) W r = S :=
  block_ext fun j c => by simp

theorem toNat_ofNat_round (r : Fin 11) : (BitVec.ofNat 8 r.val).toNat = r.val := by
  rw [BitVec.toNat_ofNat]
  omega

theorem exec_addroundkey_ofNat (r : Fin 11) (s : State) :
    exec (.addroundkey (BitVec.ofNat 8 r.val)) s = .next (s.withSchedule fun S W => addRoundKey S W r) := by
  have hindex : index11 (BitVec.ofNat 8 r.val) = r := by
    rw [index11, toNat_ofNat_round]
    exact Fin.ofNat_val_eq_self r
  rw [exec_addroundkey (wellFormed_addroundkey (by rw [toNat_ofNat_round]; omega)), hindex]

/-- Settles O20, by the cells of AddRoundKey and its being its own inverse. -/
theorem addRoundKeyCommand : Obligations.AddRoundKeyCommand := by
  refine fun s r => ⟨_, exec_addroundkey_ofNat r s, ?_, fun j c => ?_, ?_⟩
  · rw [State.withSchedule, ensureSchedule_eq]
    rfl
  · rw [withSchedule_st]
    exact cell_addRoundKey s.st _ r j c
  · rw [exec_addroundkey_ofNat, withSchedule_withSchedule fun S W => addRoundKey_addRoundKey S W r]
    rfl

/- ## Cipher and InvCipher (R160 to R162) -/

/-- Steps taken back in reverse order. -/
theorem foldl_reverse_foldl {α β : Type} {f g : β → α → β} (h : ∀ b a, g (f b a) a = b) (l : List α) (b : β) :
    l.reverse.foldl g (l.foldl f b) = b := by
  induction l generalizing b with
  | nil => rfl
  | cons a l ih => rw [List.foldl_cons, List.reverse_cons, List.foldl_append, ih, List.foldl_cons, List.foldl_nil, h]

/-- One of the rounds 1..9 of Cipher taken back. -/
def undoRound (W : Schedule) (S : Block) (round : Fin 11) : Block :=
  invSubBytes (invShiftRows (invMixColumns (addRoundKey S W round)))

theorem undoRound_cipherRound (W : Schedule) (S : Block) (round : Fin 11) :
    undoRound W (cipherRound W S round) round = S := by
  simp [undoRound, cipherRound, invMixColumns_mixColumns]

theorem cipherRound_undoRound (W : Schedule) (S : Block) (round : Fin 11) :
    cipherRound W (undoRound W S round) round = S := by
  simp [undoRound, cipherRound, mixColumns_invMixColumns]

/-- InvCipher takes the rounds of Cipher back in reverse order: the substitution and the rotation that begin each of its
rounds end the one before (R161). -/
theorem invCipher_eq (S : Block) (W : Schedule) :
    invCipher S W = addRoundKey
      (middleRounds.reverse.foldl (undoRound W) (invSubBytes (invShiftRows (addRoundKey S W 10)))) W 0 := by
  have hmove := List.foldl_hom (fun S => invSubBytes (invShiftRows S)) (g₁ := invCipherRound W) (g₂ := undoRound W)
    (l := middleRounds.reverse) (init := addRoundKey S W 10) fun _ _ => rfl
  rw [invCipher, ← hmove]

theorem invCipher_cipher (S : Block) (W : Schedule) : invCipher (cipher S W) W = S := by
  rw [invCipher_eq, cipher, addRoundKey_addRoundKey, invShiftRows_shiftRows, invSubBytes_subBytes,
    foldl_reverse_foldl fun S r => undoRound_cipherRound W S r, addRoundKey_addRoundKey]

theorem cipher_invCipher (S : Block) (W : Schedule) : cipher (invCipher S W) W = S := by
  have hrounds := foldl_reverse_foldl (fun S r => cipherRound_undoRound W S r) middleRounds.reverse
  rw [List.reverse_reverse] at hrounds
  rw [invCipher_eq, cipher, addRoundKey_addRoundKey, hrounds, subBytes_invSubBytes, shiftRows_invShiftRows,
    addRoundKey_addRoundKey]

/-- Settles O23: the two ciphers undo each other with any schedule, and so do the commands with the schedule that the
first of them leaves. -/
theorem decryptAndEncryptAreInverse : Obligations.DecryptAndEncryptAreInverse := by
  refine ⟨fun S W => ⟨invCipher_cipher S W, cipher_invCipher S W⟩, fun s => ⟨⟨s.withSchedule cipher, rfl, ?_⟩,
    ⟨s.withSchedule invCipher, rfl, ?_⟩⟩⟩
  · exact congrArg Host.Outcome.next (withSchedule_withSchedule invCipher_cipher s)
  · exact congrArg Host.Outcome.next (withSchedule_withSchedule cipher_invCipher s)

end Sys2Proof.Machine
